-- ==== Sys2Proof/Word.lean ====
section
/-! DEFINITION. The word types of the hardware: every value is unsigned (R12), registers and memory are bytes (R101, R200),
I, PC and stack entries are 16 bits (R105, R107, R108), an opcode is 16 bits (R300) and its fields are 4, 8 and 12 bits (R302). -/

namespace Sys2Proof

/-- One byte: a V register, DT, ST, a memory cell, the immediate `kk`. -/
abbrev Byte := BitVec 8

/-- Sixteen bits: I, PC, a stack entry, an opcode. -/
abbrev Word := BitVec 16

/-- A register index 0..15, the fields `x` and `y` (R302). -/
abbrev Reg := BitVec 4

/-- A nibble that is no register index: the row count `n` of DRW, a function selector (R302, R303). -/
abbrev Nibble := BitVec 4

/-- A key code 0x0..0xF (R800, R805). -/
abbrev Key := BitVec 4

/-- The 12-bit address operand `nnn` (R302). -/
abbrev Addr := BitVec 12

/-- A display coordinate as the core passes it, 9 bits unsigned (R430). -/
abbrev Coord := BitVec 9

end Sys2Proof
end

