-- ==== Sys2Proof/Syntax.lean ====
section
/-! DEFINITION. The 35 instructions of R317, one constructor per row of spec/opcode_table.json, in the table's order, with the
operands that R318's decoder hands on: fields the hardware ignores (x of CLS and RET, n of 5xyn and 9xyn, y of the shifts) are
no operand. -/

namespace Sys2Proof

/-- An instruction of the opcode table (R317). A word that selects none of them is no instruction (R311). -/
inductive Instr where
  /-- `SYS nnn` (R500). -/
  | sys (nnn : Addr)
  /-- `CLS` (R710). -/
  | cls
  /-- `RET` (R501). -/
  | ret
  /-- `JP nnn` (R502). -/
  | jp (nnn : Addr)
  /-- `CALL nnn` (R503). -/
  | call (nnn : Addr)
  /-- `SE Vx,kk` (R505). -/
  | seImm (x : Reg) (kk : Byte)
  /-- `SNE Vx,kk` (R506). -/
  | sneImm (x : Reg) (kk : Byte)
  /-- `SE Vx,Vy` (R507). -/
  | seReg (x y : Reg)
  /-- `LD Vx,kk` (R600). -/
  | ldImm (x : Reg) (kk : Byte)
  /-- `ADD Vx,kk` (R601). -/
  | addImm (x : Reg) (kk : Byte)
  /-- `LD Vx,Vy` (R602). -/
  | ldReg (x y : Reg)
  /-- `OR Vx,Vy` (R603). -/
  | orReg (x y : Reg)
  /-- `AND Vx,Vy` (R604). -/
  | andReg (x y : Reg)
  /-- `XOR Vx,Vy` (R605). -/
  | xorReg (x y : Reg)
  /-- `ADD Vx,Vy` (R606). -/
  | addReg (x y : Reg)
  /-- `SUB Vx,Vy` (R607). -/
  | subReg (x y : Reg)
  /-- `SHR Vx` (R608). -/
  | shr (x : Reg)
  /-- `SUBN Vx,Vy` (R609). -/
  | subnReg (x y : Reg)
  /-- `SHL Vx` (R610). -/
  | shl (x : Reg)
  /-- `SNE Vx,Vy` (R508). -/
  | sneReg (x y : Reg)
  /-- `LD I,nnn` (R903). -/
  | ldI (nnn : Addr)
  /-- `JP V0,nnn` (R504). -/
  | jpV0 (nnn : Addr)
  /-- `RND Vx,kk` (R612). -/
  | rnd (x : Reg) (kk : Byte)
  /-- `DRW Vx,Vy,n` (R711). -/
  | drw (x y : Reg) (n : Nibble)
  /-- `SKP Vx` (R801). -/
  | skp (x : Reg)
  /-- `SKNP Vx` (R802). -/
  | sknp (x : Reg)
  /-- `LD Vx,DT` (R900). -/
  | ldVxDT (x : Reg)
  /-- `LD Vx,K` (R803). -/
  | ldVxK (x : Reg)
  /-- `LD DT,Vx` (R901). -/
  | ldDTVx (x : Reg)
  /-- `LD ST,Vx` (R902). -/
  | ldSTVx (x : Reg)
  /-- `ADD I,Vx` (R904). -/
  | addI (x : Reg)
  /-- `LD F,Vx` (R905). -/
  | ldF (x : Reg)
  /-- `LD B,Vx` (R906). -/
  | ldB (x : Reg)
  /-- `LD [I],Vx` (R907). -/
  | ldMemVx (x : Reg)
  /-- `LD Vx,[I]` (R908). -/
  | ldVxMem (x : Reg)
  deriving DecidableEq, Repr

end Sys2Proof
end

