-- ==== Sys2Proof/WellFormed.lean ====
section
/-! DEFINITION. Which instruction terms stand for a word of the hardware. Every operand is a bit vector of its field's width
(R302), so the one check left is R306's: `SYS nnn` is encoded only where the low byte of `nnn` is neither CLS's 0xE0 nor
RET's 0xEE. -/

namespace Sys2Proof

/-- The low byte `kk` of an address operand `nnn` (R302: both are fields of the same word). -/
def Addr.lowByte (nnn : Addr) : Byte := nnn.setWidth 8

/-- An instruction that some 16-bit word encodes (R306, R317 row 1: `kk` is neither 0xE0 nor 0xEE in SYS). -/
def Instr.wellFormed : Instr → Bool
  | .sys nnn => Addr.lowByte nnn != 0xE0#8 && Addr.lowByte nnn != 0xEE#8
  | _ => true

end Sys2Proof
end

