-- ==== Sys2Proof/Decode.lean ====
section
/-! DEFINITION. Decoding (R300 to R318) and encoding. The decoder is total on all 65536 words (R312): a word is one of the 35
instructions or is rejected by the name of the group whose secondary dispatch has no such case (R311), which the step treats
as a no-op. The numeric patterns other than 00E0 and 1nnn are the spec's general knowledge (GK1, log entry 13, PRESUMED, unsafe). -/

namespace Sys2Proof

/-- `nnn = op[11:0]` (R302). -/
def Word.nnn (op : Word) : Addr := op.extractLsb' 0 12
/-- `n = op[3:0]` (R302). -/
def Word.n (op : Word) : Nibble := op.extractLsb' 0 4
/-- `x = op[11:8]` (R302). -/
def Word.x (op : Word) : Reg := op.extractLsb' 8 4
/-- `y = op[7:4]` (R302). -/
def Word.y (op : Word) : Reg := op.extractLsb' 4 4
/-- `kk = op[7:0]` (R302). -/
def Word.kk (op : Word) : Byte := op.extractLsb' 0 8
/-- The top nibble `op[15:12]`, the field of the first dispatch (R304). -/
def Word.top (op : Word) : Nibble := op.extractLsb' 12 4

/-- Why a word selects no instruction (R311, the `UnknownOpcode` of R1004). -/
inductive UnknownOpcode where
  /-- Group 0x8 with a selector `n` that names no operation (R307). -/
  | group8 (n : Nibble)
  /-- Group 0xE with a sub-opcode other than 9E and A1 (R308). -/
  | groupE (kk : Byte)
  /-- Group 0xF with a sub-opcode that names no operation (R309). -/
  | groupF (kk : Byte)
  deriving DecidableEq, Repr

/-- What the decoder answers: an instruction, or R318's NOP with the reason. -/
inductive Decoded where
  /-- One of the 35 instructions. -/
  | instr (i : Instr)
  /-- An unknown encoding (R311). -/
  | unknown (why : UnknownOpcode)
  deriving DecidableEq, Repr

/-- Group 0x0: dispatch on `kk` alone (R306, D7). -/
def decodeGroup0 (op : Word) : Instr :=
  if op.kk = 0xE0#8 then .cls
  else if op.kk = 0xEE#8 then .ret
  else .sys op.nnn

/-- Group 0x8: dispatch on `n` (R307). -/
def decodeGroup8 (op : Word) : Decoded :=
  match op.n with
  | 0x0#4 => .instr (.ldReg op.x op.y)
  | 0x1#4 => .instr (.orReg op.x op.y)
  | 0x2#4 => .instr (.andReg op.x op.y)
  | 0x3#4 => .instr (.xorReg op.x op.y)
  | 0x4#4 => .instr (.addReg op.x op.y)
  | 0x5#4 => .instr (.subReg op.x op.y)
  | 0x6#4 => .instr (.shr op.x)
  | 0x7#4 => .instr (.subnReg op.x op.y)
  | 0xE#4 => .instr (.shl op.x)
  | n => .unknown (.group8 n)

/-- Group 0xE: dispatch on `kk` (R308). -/
def decodeGroupE (op : Word) : Decoded :=
  match op.kk with
  | 0x9E#8 => .instr (.skp op.x)
  | 0xA1#8 => .instr (.sknp op.x)
  | kk => .unknown (.groupE kk)

/-- Group 0xF: dispatch on `kk` (R309). -/
def decodeGroupF (op : Word) : Decoded :=
  match op.kk with
  | 0x07#8 => .instr (.ldVxDT op.x)
  | 0x0A#8 => .instr (.ldVxK op.x)
  | 0x15#8 => .instr (.ldDTVx op.x)
  | 0x18#8 => .instr (.ldSTVx op.x)
  | 0x1E#8 => .instr (.addI op.x)
  | 0x29#8 => .instr (.ldF op.x)
  | 0x33#8 => .instr (.ldB op.x)
  | 0x55#8 => .instr (.ldMemVx op.x)
  | 0x65#8 => .instr (.ldVxMem op.x)
  | kk => .unknown (.groupF kk)

/-- The decoder of R318: first dispatch on the top nibble, second on `kk` or `n` (R304, R305); groups 0x5 and 0x9 ignore `n`
(R310, D8). -/
def decode (op : Word) : Decoded :=
  match op.top with
  | 0x0#4 => .instr (decodeGroup0 op)
  | 0x1#4 => .instr (.jp op.nnn)
  | 0x2#4 => .instr (.call op.nnn)
  | 0x3#4 => .instr (.seImm op.x op.kk)
  | 0x4#4 => .instr (.sneImm op.x op.kk)
  | 0x5#4 => .instr (.seReg op.x op.y)
  | 0x6#4 => .instr (.ldImm op.x op.kk)
  | 0x7#4 => .instr (.addImm op.x op.kk)
  | 0x8#4 => decodeGroup8 op
  | 0x9#4 => .instr (.sneReg op.x op.y)
  | 0xA#4 => .instr (.ldI op.nnn)
  | 0xB#4 => .instr (.jpV0 op.nnn)
  | 0xC#4 => .instr (.rnd op.x op.kk)
  | 0xD#4 => .instr (.drw op.x op.y op.n)
  | 0xE#4 => decodeGroupE op
  | _ => decodeGroupF op

/-- The instruction a decoding holds, if it is one. -/
def Decoded.toOption : Decoded → Option Instr
  | .instr i => some i
  | .unknown _ => none

/-- The opcode of two bytes, the one at the lower address being `op[15:8]` (R204). -/
def wordOfBytes (high low : Byte) : Word := high ++ low

/-- The high byte of a word, stored at the lower address (R204). -/
def Word.highByte (op : Word) : Byte := op.extractLsb' 8 8
/-- The low byte of a word, stored at the higher address (R204). -/
def Word.lowByte (op : Word) : Byte := op.extractLsb' 0 8

/-- A word as memory holds it, in ascending addresses (R204). -/
def wordBytes (op : Word) : List Byte := [op.highByte, op.lowByte]

/-- Decoding a byte sequence: two bytes make one word, and the rest is handed back; `none` where fewer than two bytes are left.
Every instruction is one word (R300). -/
def decodeBytes : List Byte → Option (Decoded × List Byte)
  | high :: low :: rest => some (decode (wordOfBytes high low), rest)
  | _ => none

/-- The instruction the decoder reads from a table row's word `w` of `nbits` bits: the word is laid out in memory order and given
to the byte decoder. -/
def decodeTableWord (nbits w : Nat) : Option Instr :=
  match decodeBytes (wordBytes (BitVec.ofNat 16 (w % 2 ^ nbits))) with
  | some (d, _) => d.toOption
  | none => none

/-- A word of the formats `XKK` and `X-KK`: opcode nibble, `x`, `kk` (R301). -/
def wordXKK (top : Nibble) (x : Reg) (kk : Byte) : Word := top ++ x ++ kk
/-- A word of the format `XYN`: opcode nibble, `x`, `y`, `n` (R301). -/
def wordXYN (top : Nibble) (x y : Reg) (n : Nibble) : Word := top ++ x ++ y ++ n
/-- A word of the format `NNN`: opcode nibble, `nnn` (R301). -/
def wordNNN (top : Nibble) (nnn : Addr) : Word := top ++ nnn

/-- The word of an instruction, row by row of R317. A field the hardware ignores is encoded as 0. -/
def encode : Instr → Word
  | .sys nnn => wordNNN 0x0#4 nnn
  | .cls => wordXKK 0x0#4 0x0#4 0xE0#8
  | .ret => wordXKK 0x0#4 0x0#4 0xEE#8
  | .jp nnn => wordNNN 0x1#4 nnn
  | .call nnn => wordNNN 0x2#4 nnn
  | .seImm x kk => wordXKK 0x3#4 x kk
  | .sneImm x kk => wordXKK 0x4#4 x kk
  | .seReg x y => wordXYN 0x5#4 x y 0x0#4
  | .ldImm x kk => wordXKK 0x6#4 x kk
  | .addImm x kk => wordXKK 0x7#4 x kk
  | .ldReg x y => wordXYN 0x8#4 x y 0x0#4
  | .orReg x y => wordXYN 0x8#4 x y 0x1#4
  | .andReg x y => wordXYN 0x8#4 x y 0x2#4
  | .xorReg x y => wordXYN 0x8#4 x y 0x3#4
  | .addReg x y => wordXYN 0x8#4 x y 0x4#4
  | .subReg x y => wordXYN 0x8#4 x y 0x5#4
  | .shr x => wordXYN 0x8#4 x 0x0#4 0x6#4
  | .subnReg x y => wordXYN 0x8#4 x y 0x7#4
  | .shl x => wordXYN 0x8#4 x 0x0#4 0xE#4
  | .sneReg x y => wordXYN 0x9#4 x y 0x0#4
  | .ldI nnn => wordNNN 0xA#4 nnn
  | .jpV0 nnn => wordNNN 0xB#4 nnn
  | .rnd x kk => wordXKK 0xC#4 x kk
  | .drw x y n => wordXYN 0xD#4 x y n
  | .skp x => wordXKK 0xE#4 x 0x9E#8
  | .sknp x => wordXKK 0xE#4 x 0xA1#8
  | .ldVxDT x => wordXKK 0xF#4 x 0x07#8
  | .ldVxK x => wordXKK 0xF#4 x 0x0A#8
  | .ldDTVx x => wordXKK 0xF#4 x 0x15#8
  | .ldSTVx x => wordXKK 0xF#4 x 0x18#8
  | .addI x => wordXKK 0xF#4 x 0x1E#8
  | .ldF x => wordXKK 0xF#4 x 0x29#8
  | .ldB x => wordXKK 0xF#4 x 0x33#8
  | .ldMemVx x => wordXKK 0xF#4 x 0x55#8
  | .ldVxMem x => wordXKK 0xF#4 x 0x65#8

/-- The "mask" column of R317: the bits that select the row. -/
def rowMask : Instr → Word
  | .sys _ | .jp _ | .call _ | .seImm _ _ | .sneImm _ _ | .seReg _ _ | .ldImm _ _ | .addImm _ _ => 0xF000#16
  | .sneReg _ _ | .ldI _ | .jpV0 _ | .rnd _ _ | .drw _ _ _ => 0xF000#16
  | .ldReg _ _ | .orReg _ _ | .andReg _ _ | .xorReg _ _ | .addReg _ _ | .subReg _ _ | .shr _ | .subnReg _ _ | .shl _ => 0xF00F#16
  | .cls | .ret | .skp _ | .sknp _ | .ldVxDT _ | .ldVxK _ | .ldDTVx _ | .ldSTVx _ | .addI _ => 0xF0FF#16
  | .ldF _ | .ldB _ | .ldMemVx _ | .ldVxMem _ => 0xF0FF#16

/-- The "match" column of R317: the value of the selecting bits. -/
def rowMatch : Instr → Word
  | .sys _ => 0x0000#16
  | .cls => 0x00E0#16
  | .ret => 0x00EE#16
  | .jp _ => 0x1000#16
  | .call _ => 0x2000#16
  | .seImm _ _ => 0x3000#16
  | .sneImm _ _ => 0x4000#16
  | .seReg _ _ => 0x5000#16
  | .ldImm _ _ => 0x6000#16
  | .addImm _ _ => 0x7000#16
  | .ldReg _ _ => 0x8000#16
  | .orReg _ _ => 0x8001#16
  | .andReg _ _ => 0x8002#16
  | .xorReg _ _ => 0x8003#16
  | .addReg _ _ => 0x8004#16
  | .subReg _ _ => 0x8005#16
  | .shr _ => 0x8006#16
  | .subnReg _ _ => 0x8007#16
  | .shl _ => 0x800E#16
  | .sneReg _ _ => 0x9000#16
  | .ldI _ => 0xA000#16
  | .jpV0 _ => 0xB000#16
  | .rnd _ _ => 0xC000#16
  | .drw _ _ _ => 0xD000#16
  | .skp _ => 0xE09E#16
  | .sknp _ => 0xE0A1#16
  | .ldVxDT _ => 0xF007#16
  | .ldVxK _ => 0xF00A#16
  | .ldDTVx _ => 0xF015#16
  | .ldSTVx _ => 0xF018#16
  | .addI _ => 0xF01E#16
  | .ldF _ => 0xF029#16
  | .ldB _ => 0xF033#16
  | .ldMemVx _ => 0xF055#16
  | .ldVxMem _ => 0xF065#16

/-- The bits of a word that its instruction does not examine (R306, R310, R608, R610): x of CLS and RET, n of 5xyn and 9xyn, y of the
shifts. -/
def ignoredBits : Instr → Word
  | .cls | .ret => 0x0F00#16
  | .seReg _ _ | .sneReg _ _ => 0x000F#16
  | .shr _ | .shl _ => 0x00F0#16
  | _ => 0x0000#16

end Sys2Proof
end

