-- ==== Sys2Proof/Config.lean ====
section
/-! DEFINITION. What is fixed for the machine and what the environment leaves open: the configurable parameters of R9 with
their defaults, and the draws of R15, R612 and R800 as constants without a body. FONT_ROM and FB_INIT are arguments of
`Sys2Proof.Machine.construct`. -/

namespace Sys2Proof

/-- The parameters of R9 that an instruction's effect depends on; the state holds them, since exec's only argument is the state
(log entry 7, DESIGN CHOICE, safe). -/
structure Params where
  /-- `STACK_DEPTH`: `none` is `unbounded` (R9, D5). -/
  stackDepth : Option Nat
  /-- `REG_BLOCK_INCLUSIVE` (R9, D12). -/
  regBlockInclusive : Bool
  deriving DecidableEq, Repr

/-- The defaults of R9. -/
def Params.default : Params := { stackDepth := none, regBlockInclusive := false }

/-- The cycle driver's configuration (R9, R420) and whether it is firing ticks (R421, R422). -/
structure Driver where
  /-- `TICKS_PER_SECOND` (R9); no rule depends on it (R424, R1121). Log entry 16, DESIGN CHOICE, safe: a natural number. -/
  ticksPerSecond : Nat
  /-- `CYCLES_PER_TICK` (R9, D24): any natural number, 0 included. -/
  cyclesPerTick : Nat
  /-- Started and not stopped (R421, R422). -/
  running : Bool
  deriving DecidableEq, Repr

/-- The defaults of R9, not yet started (R1104). -/
def Driver.default : Driver := { ticksPerSecond := 60, cyclesPerTick := 10, running := false }

/-- The byte the `rnd` port supplies at the `n`-th draw of a run, R612 (D23): "a fresh draw on every execution and assumes nothing of
it". No body: a claim holds for every value (log entry 4, DESIGN CHOICE, safe). -/
opaque Config.freeByte : Nat → BitVec 8

/-- The keyboard's answer to the query made as the `n`-th draw of a run, R800 (D17): "a fresh Boolean input of the step that makes the
query, with no law relating two queries", for a value above 0xF too. No body (log entry 5, DESIGN CHOICE, safe). -/
opaque Config.freeKeyAnswer : Nat → Bool

end Sys2Proof
end

