-- ==== Sys2Proof/Machine/State.lean ====
section
/-! DEFINITION. The state of the machine as plain data: the tuple of R100, the display collaborator's framebuffer (R122, R700), the
configuration of R9, the position inside a tick (R410, R411) and the record of the port operations of a tick (R413, R430). -/

namespace Sys2Proof.Machine

/-- The named fault reasons. The hardware raises no exception (R1000); the one fault of R15 is held in the state. -/
inductive Fault where
  /-- `CALL` on a full stack of finite `STACK_DEPTH` (R503, R1003). Raised by `execCall`, into the field `faulted`: the spec says what
  the machine does afterwards (no-op steps, timers still, audio and render go on), so no step ANSWERS with it. Safe: the spec errs
  toward unprovable here (D5). -/
  | stackOverflow
  deriving DecidableEq, Repr

/-- Why an instruction has no meaning. -/
inductive Refusal where
  /-- An instruction whose meaning is not written. Raised by an arm of `exec` alone; at present by none, since all 35 have their
  meaning. Safe: it stops where the hardware goes on. -/
  | notModelled (mnemonic : String)
  deriving DecidableEq, Repr

/-- Memory (R200): the bytes that differ from the reset contents, by index, in strictly rising order. What an unlisted index reads
as is `Memory.unlisted`; the canonical form is `Memory.wf`. -/
abbrev Memory := List Host.Cell

/-- The framebuffer `fb[c][r]`, column 0..63, row 0..31, `true` for a set pixel (R700). -/
abbrev Framebuffer := Vector (Vector Bool 32) 64

/-- Where the machine stands relative to the driver's ticks (R410, R411, R1122). -/
inductive Phase where
  /-- Between two ticks: the next step begins a tick. -/
  | between
  /-- Inside a tick, with `left` invocations of `step()` still to make before the timer update (R411). -/
  | burst (left : Nat)
  deriving DecidableEq, Repr

/-- One operation at a port of the block (R430), with the answer it got in the same step. -/
inductive PortOp where
  /-- `disp_clear` (R702). -/
  | dispClear
  /-- `disp_toggle(x, y)` and its answer `erased` (R701). -/
  | dispToggle (x y : Coord) (erased : Bool)
  /-- `disp_render` (R703, R1013). -/
  | dispRender
  /-- `key_query(k)` and its answer `pressed` (R800). -/
  | keyQuery (k : Byte) (pressed : Bool)
  /-- `key_wait_arm` (R804). -/
  | keyWaitArm
  /-- `audio_play` (R1012). -/
  | audioPlay
  /-- `audio_stop` (R1012). -/
  | audioStop
  /-- A sample of the `rnd` port (R612). -/
  | rnd (r : Byte)
  deriving DecidableEq, Repr

/-- The state of the machine. The first ten fields are the tuple of R100. -/
structure State where
  /-- `mem` (R200). -/
  mem : Memory
  /-- `V[0]..V[15]` (R101); `V[15]` is VF, the flag (R102, R111). -/
  V : Vector Byte 16
  /-- The address register (R107). -/
  I : Word
  /-- The program counter (R105). -/
  PC : Word
  /-- The call stack, most recent entry last (R100, R108). -/
  stack : List Word
  /-- The delay timer (R109). -/
  DT : Byte
  /-- The sound timer (R110). -/
  ST : Byte
  /-- The paused flag (R113). -/
  paused : Bool
  /-- The key-wait latch (R120). -/
  waitReg : Option Reg
  /-- The sticky fault state (R121). -/
  faulted : Option Fault
  /-- The display collaborator's framebuffer (R122, R700). -/
  fb : Framebuffer
  /-- The parameters of R9 that instructions read (log entry 7). -/
  params : Params
  /-- The cycle driver (R420 to R422). -/
  driver : Driver
  /-- Between ticks, or inside a burst (R411; log entry 8). -/
  phase : Phase
  /-- The port operations of the tick in progress, or of the last one, oldest first (R413, R430; log entry 10). -/
  ports : List PortOp
  /-- The model's own field: the key-down codes that arrive in the coming gaps between ticks, one list per gap (R805, R806, K9; log
  entry 6). -/
  keyInput : List (List Key)
  /-- The model's own field: how many draws the run has taken (R15, R612, R800; log entries 4 and 5). -/
  draws : Nat
  deriving DecidableEq, Repr

/-- The table of R130, with R9's defaults; the display is dark (FB_INIT is OPEN, log entry 3, DESIGN CHOICE, unsafe), no tick has
begun, no key event is to come (log entry 6, DESIGN CHOICE, unsafe) and the driver is not started (log entry 11). Memory lists
nothing: it holds its reset contents. -/
def State.reset : State where
  mem := []
  V := Vector.replicate 16 0x00#8
  I := 0x0000#16
  PC := 0x0200#16
  stack := []
  DT := 0x00#8
  ST := 0x00#8
  paused := false
  waitReg := none
  faulted := none
  fb := Vector.replicate 64 (Vector.replicate 32 false)
  params := Params.default
  driver := Driver.default
  phase := .between
  ports := []
  keyInput := []
  draws := 0

end Sys2Proof.Machine
end

