-- ==== Sys2Proof/Machine/Memory.lean ====
section
/-! DEFINITION. Memory: 4096 bytes of plain storage (R200, R208), the font of R211, the address reduction of R203, and reading
and writing one byte, the only width there is (R207). -/

namespace Sys2Proof.Machine

/-- `MEM_SIZE` (R8). -/
def memSize : Nat := 4096

/-- The default `FONT_ROM`, 16 glyphs of 5 bytes, glyph d at 5·d (R211). The byte values are the spec's general knowledge (GK3, log
entry 2, PRESUMED, unsafe). -/
def fontRom : Vector Byte 80 := #v[
  0xF0, 0x90, 0x90, 0x90, 0xF0,
  0x20, 0x60, 0x20, 0x20, 0x70,
  0xF0, 0x10, 0xF0, 0x80, 0xF0,
  0xF0, 0x10, 0xF0, 0x10, 0xF0,
  0x90, 0x90, 0xF0, 0x10, 0x10,
  0xF0, 0x80, 0xF0, 0x10, 0xF0,
  0xF0, 0x80, 0xF0, 0x90, 0xF0,
  0xF0, 0x10, 0x20, 0x40, 0x40,
  0xF0, 0x90, 0xF0, 0x90, 0xF0,
  0xF0, 0x90, 0xF0, 0x10, 0xF0,
  0xF0, 0x90, 0xF0, 0x90, 0x90,
  0xE0, 0x90, 0xE0, 0x90, 0xE0,
  0xF0, 0x80, 0x80, 0x80, 0xF0,
  0xE0, 0x90, 0x90, 0x90, 0xE0,
  0xF0, 0x80, 0xF0, 0x80, 0xF0,
  0xF0, 0x80, 0xF0, 0x80, 0x80]

/-- What an index that memory does not list reads as: the reset contents, the font at 0x000..0x04F and 0x00 elsewhere (R130, R210,
R1101; log entry 1). -/
def Memory.unlisted (a : Nat) : Byte := fontRom[a]?.getD 0x00#8

/-- The index of an exact address (R203, D2): "Every memory access, fetch included, uses the index `addr mod 4096`". -/
def memIndex (addr : Nat) : Nat := addr % memSize

/-- The byte at an index of the canonical list. -/
def Memory.lookup : Memory → Nat → Byte
  | [], a => Memory.unlisted a
  | (k, b) :: rest, a => if k = a then b else Memory.lookup rest a

/-- Putting an entry at its place in rising order. -/
def Memory.insert (a : Nat) (b : Byte) : Memory → Memory
  | [] => [(a, b)]
  | (k, c) :: rest => if a < k then (a, b) :: (k, c) :: rest else (k, c) :: Memory.insert a b rest

/-- Dropping every entry of an index. -/
def Memory.erase (a : Nat) (m : Memory) : Memory := m.filter fun e => e.1 != a

/-- Setting the byte at an index; the value an unlisted index reads as leaves no entry. -/
def Memory.put (m : Memory) (a : Nat) (b : Byte) : Memory :=
  if b = Memory.unlisted a then Memory.erase a m else Memory.insert a b (Memory.erase a m)

/-- `MemRead(addr, 1)` (R14). -/
def Memory.read (m : Memory) (addr : Nat) : Byte := Memory.lookup m (memIndex addr)

/-- `MemWrite(addr, 1, b)` (R14). -/
def Memory.write (m : Memory) (addr : Nat) (b : Byte) : Memory := Memory.put m (memIndex addr) b

/-- Writing bytes at ascending addresses from `addr`, in order (R205). -/
def Memory.writeBytes (m : Memory) (addr : Nat) : List Byte → Memory
  | [] => m
  | b :: rest => Memory.writeBytes (Memory.write m addr b) (addr + 1) rest

/-- The canonical form: indices strictly rising, all inside memory, and no entry equal to what an unlisted index reads as. -/
abbrev Memory.wf (m : Memory) : Prop :=
  m.Pairwise (fun e f => e.1 < f.1) ∧ ∀ e ∈ m, e.1 < memSize ∧ e.2 ≠ Memory.unlisted e.1

end Sys2Proof.Machine
end

