-- ==== Sys2Proof/Machine/Ops.lean ====
section
/-! DEFINITION. The named operations on the state that the meanings share: registers, memory, the program counter, the call stack,
the ports and draws, and the display contract (R701, R702). The hardware takes no exception and has no return from one (R1000, R1006,
R1008, R1009): there is no such operation; the sticky fault of R1003 is `overflowStack`. -/

namespace Sys2Proof.Machine

/-- Read of `V[x]` (R13). -/
def State.readV (s : State) (x : Reg) : Byte := s.V[x.toNat]'x.isLt

/-- `V[x] <- b` (R13). -/
def State.writeV (s : State) (x : Reg) (b : Byte) : State := { s with V := s.V.set x.toNat b x.isLt }

/-- VF, the flag register (R102). -/
def VF : Reg := 15#4

/-- `MemRead(addr, 1)` on the state (R14, R203). -/
def State.readMem (s : State) (addr : Nat) : Byte := s.mem.read addr

/-- `MemWrite(addr, 1, b)` on the state (R14, R203). -/
def State.writeMem (s : State) (addr : Nat) (b : Byte) : State := { s with mem := s.mem.write addr b }

/-- The opcode at PC, two bytes big-endian (R204, R401). -/
def State.fetch (s : State) : Word := wordOfBytes (s.readMem s.PC.toNat) (s.readMem (s.PC.toNat + 1))

/-- `PC <- wrap16(PC + 2)`: the default advance (R404) and the skip (R509). -/
def State.advancePC (s : State) : State := { s with PC := s.PC + 2#16 }

/-- `PC <- target` (R13). -/
def State.jump (s : State) (target : Word) : State := { s with PC := target }

/-- A skip instruction's effect: one more advance where the condition holds (R509). -/
def State.skipIf (s : State) (condition : Bool) : State := if condition then s.advancePC else s

/-- `I <- w` (R13). -/
def State.writeI (s : State) (w : Word) : State := { s with I := w }

/-- `push(stack, w)` (R13, R108): the most recent entry is the last. -/
def State.push (s : State) (w : Word) : State := { s with stack := s.stack ++ [w] }

/-- `PC <- pop(stack)`, or nothing on an empty stack (R501, R1002). -/
def State.popToPC (s : State) : State :=
  match s.stack.getLast? with
  | some w => { s with PC := w, stack := s.stack.dropLast }
  | none => s

/-- `STACK_DEPTH != unbounded and len(stack) == STACK_DEPTH` (R503). -/
def State.stackFull (s : State) : Bool :=
  match s.params.stackDepth with
  | none => false
  | some depth => s.stack.length == depth

/-- `faulted <- StackOverflow` (R1003). -/
def State.overflowStack (s : State) : State := { s with faulted := some .stackOverflow }

/-- A port operation is made (R430). -/
def State.emit (s : State) (p : PortOp) : State := { s with ports := s.ports ++ [p] }

/-- `draw_u8()`: the byte on the `rnd` port (R612). -/
def State.drawByte (s : State) : Byte := Config.freeByte s.draws

/-- The state after `draw_u8()`. -/
def State.afterDrawByte (s : State) : State := { s.emit (.rnd s.drawByte) with draws := s.draws + 1 }

/-- `Keyboard.isPressed(k)`: the answer is a draw, whatever `k` is (R800, D17). -/
def State.keyAnswer (s : State) : Bool := Config.freeKeyAnswer s.draws

/-- The state after the query `Keyboard.isPressed(k)`. -/
def State.afterKeyQuery (s : State) (k : Byte) : State := { s.emit (.keyQuery k s.keyAnswer) with draws := s.draws + 1 }

/-- The key-wait: `paused <- true`, `waitReg <- x`, `Keyboard.registerNext()` (R803, R804). -/
def State.armKeyWait (s : State) (x : Reg) : State := { s.emit .keyWaitArm with paused := true, waitReg := some x }

/-- The key-wait completion, one key-down event with code `k` (R805); without a pending wait nothing changes (R806). -/
def State.keyDown (s : State) (k : Key) : State :=
  match s.waitReg with
  | some x => { s.writeV x (k.setWidth 8) with paused := false, waitReg := none }
  | none => s

/-- Several key-down events of one gap, in order (R806). -/
def State.keyDowns (s : State) (ks : List Key) : State := ks.foldl State.keyDown s

/-- The column of a coordinate: floored modulo 64 (R701, R704). -/
def column (x : Int) : Fin 64 := ⟨(x % 64).toNat, by omega⟩

/-- The row of a coordinate: floored modulo 32 (R701, R704). -/
def row (y : Int) : Fin 32 := ⟨(y % 32).toNat, by omega⟩

/-- `fb[c][r]` (R700). -/
def Framebuffer.pixel (fb : Framebuffer) (c : Fin 64) (r : Fin 32) : Bool := fb[c][r]

/-- `fb[c][r] <- b` (R700). -/
def Framebuffer.setPixel (fb : Framebuffer) (c : Fin 64) (r : Fin 32) (b : Bool) : Framebuffer := fb.set c (fb[c].set r b)

/-- The answer `erased` of `Display.toggle(x, y)`: the pixel was set (R701). -/
def Framebuffer.erased (fb : Framebuffer) (x y : Int) : Bool := Framebuffer.pixel fb (column x) (row y)

/-- The framebuffer after `Display.toggle(x, y)` (R701). -/
def Framebuffer.toggle (fb : Framebuffer) (x y : Int) : Framebuffer :=
  Framebuffer.setPixel fb (column x) (row y) (!(Framebuffer.erased fb x y))

/-- The framebuffer after `Display.clear()` (R702). -/
def Framebuffer.dark : Framebuffer := Vector.replicate 64 (Vector.replicate 32 false)

/-- `Display.clear()` (R702). -/
def State.clearDisplay (s : State) : State := { s.emit .dispClear with fb := Framebuffer.dark }

/-- The answer of `Display.toggle(x, y)` at the coordinates the core passes (R701, R711). -/
def State.toggleErases (s : State) (x y : Coord) : Bool := Framebuffer.erased s.fb x.toNat y.toNat

/-- `Display.toggle(x, y)` (R701). -/
def State.togglePixel (s : State) (x y : Coord) : State :=
  { s.emit (.dispToggle x y (s.toggleErases x y)) with fb := Framebuffer.toggle s.fb x.toNat y.toNat }

end Sys2Proof.Machine
end

