-- ==== Sys2Proof/Machine/Operands.lean ====
section
/-! DEFINITION. Operand forms: how an instruction's operands become values and addresses. Every immediate is zero-extended (R303),
every address is an exact natural number before the reduction of R203 (R202). -/

namespace Sys2Proof.Machine

/-- `zext_16(nnn)` (R303). -/
def addrOperand (nnn : Addr) : Word := nnn.setWidth 16

/-- `wrap16(zext_16(nnn) + zext_16(V[0]))`, the target of `JP V0,nnn` (R504). -/
def State.offsetTarget (s : State) (nnn : Addr) : Word := addrOperand nnn + (s.readV 0#4).setWidth 16

/-- The exact address `I + k` of a sprite row, a BCD digit or a block byte (R202). -/
def State.blockAddr (s : State) (k : Nat) : Nat := s.I.toNat + k

/-- How many registers `LD [I],Vx` and `LD Vx,[I]` move: V0..V(x-1) by default, V0..Vx with `REG_BLOCK_INCLUSIVE` (R907, R908, D12). -/
def State.blockCount (s : State) (x : Reg) : Nat := if s.params.regBlockInclusive then x.toNat + 1 else x.toNat

/-- `V[x] * 5`, the address of glyph `V[x]`, unmasked (R905, D14). -/
def State.glyphAddr (s : State) (x : Reg) : Word := BitVec.ofNat 16 ((s.readV x).toNat * 5)

/-- `v / 100` (R906). -/
def bcdHundreds (v : Byte) : Byte := BitVec.ofNat 8 (v.toNat / 100)
/-- `(v / 10) % 10` (R906). -/
def bcdTens (v : Byte) : Byte := BitVec.ofNat 8 (v.toNat / 10 % 10)
/-- `v % 10` (R906). -/
def bcdOnes (v : Byte) : Byte := BitVec.ofNat 8 (v.toNat % 10)

/-- The coordinate `V[x] + c` the core passes to the display, unreduced (R711, D16); it fits 9 bits (R430). -/
def pixelCoord (origin : Byte) (offset : Nat) : Coord := origin.setWidth 9 + BitVec.ofNat 9 offset

/-- Bit `c` of a sprite byte counted from the left: bit 7 is the leftmost pixel (R711, D15, GK4; log entry 14, PRESUMED, unsafe). -/
def spriteBit (bits : Byte) (c : Nat) : Bool := bits.getMsbD c

end Sys2Proof.Machine
end

