-- ==== Sys2Proof/Machine/Flags.lean ====
section
/-! DEFINITION. The flag computations, all of them VF's (R102, R111): carry, strict comparison, bit shifted out, collision. -/

namespace Sys2Proof.Machine

/-- A flag as the byte VF receives: 1 or 0. -/
def flagByte (b : Bool) : Byte := if b then 1#8 else 0#8

/-- The carry of an addition: "VF=1 iff the unsigned sum exceeds 255" (R606). -/
def carryOut (a b : Byte) : Bool := decide (255 < a.toNat + b.toNat)

/-- The strict comparison the source calls NOT-borrow: 1 exactly when the minuend is greater (R607, R609, C1). -/
def notBorrow (minuend subtrahend : Byte) : Bool := decide (subtrahend.toNat < minuend.toNat)

/-- The bit `SHR` shifts out: `a & 0x01` (R608). -/
def shiftedOutRight (a : Byte) : Byte := a &&& 0x01#8

/-- The bit `SHL` shifts out: `(a >> 7) & 0x01` (R610). -/
def shiftedOutLeft (a : Byte) : Byte := (a >>> 7) &&& 0x01#8

/-- A result and then a flag: the flag is written last, so it is what VF keeps where `x` is 15 (R16, R102). -/
def State.writeResultAndFlag (s : State) (x : Reg) (result flag : Byte) : State := (s.writeV x result).writeV VF flag

end Sys2Proof.Machine
end

