-- ==== Sys2Proof/Machine/Alu.lean ====
section
/-! DEFINITION. Register and ALU operations (R600 to R612). Operands are read before any write; a flag is written after the result
(R16). Only ADD, SUB, SUBN, SHR and SHL write a flag (R102, R103, D10). -/

namespace Sys2Proof.Machine

/-- `LD Vx,kk` (R600). -/
def execLdImm (x : Reg) (kk : Byte) (s : State) : Host.Outcome State Fault Refusal := .next (s.advancePC.writeV x kk)

/-- `ADD Vx,kk` (R601): no carry flag. -/
def execAddImm (x : Reg) (kk : Byte) (s : State) : Host.Outcome State Fault Refusal :=
  .next (s.advancePC.writeV x (s.readV x + kk))

/-- `LD Vx,Vy` (R602). -/
def execLdReg (x y : Reg) (s : State) : Host.Outcome State Fault Refusal := .next (s.advancePC.writeV x (s.readV y))

/-- `OR Vx,Vy` (R603). -/
def execOrReg (x y : Reg) (s : State) : Host.Outcome State Fault Refusal :=
  .next (s.advancePC.writeV x (s.readV x ||| s.readV y))

/-- `AND Vx,Vy` (R604). -/
def execAndReg (x y : Reg) (s : State) : Host.Outcome State Fault Refusal :=
  .next (s.advancePC.writeV x (s.readV x &&& s.readV y))

/-- `XOR Vx,Vy` (R605). -/
def execXorReg (x y : Reg) (s : State) : Host.Outcome State Fault Refusal :=
  .next (s.advancePC.writeV x (s.readV x ^^^ s.readV y))

/-- `ADD Vx,Vy` (R606): VF is the carry. -/
def execAddReg (x y : Reg) (s : State) : Host.Outcome State Fault Refusal :=
  .next (s.advancePC.writeResultAndFlag x (s.readV x + s.readV y) (flagByte (carryOut (s.readV x) (s.readV y))))

/-- `SUB Vx,Vy` (R607): VF is the strict comparison. -/
def execSubReg (x y : Reg) (s : State) : Host.Outcome State Fault Refusal :=
  .next (s.advancePC.writeResultAndFlag x (s.readV x - s.readV y) (flagByte (notBorrow (s.readV x) (s.readV y))))

/-- `SHR Vx` (R608, D9): VF is the old bit 0. -/
def execShr (x : Reg) (s : State) : Host.Outcome State Fault Refusal :=
  .next (s.advancePC.writeResultAndFlag x (s.readV x >>> 1) (shiftedOutRight (s.readV x)))

/-- `SUBN Vx,Vy` (R609, D11): VF is the strict comparison the other way round. -/
def execSubnReg (x y : Reg) (s : State) : Host.Outcome State Fault Refusal :=
  .next (s.advancePC.writeResultAndFlag x (s.readV y - s.readV x) (flagByte (notBorrow (s.readV y) (s.readV x))))

/-- `SHL Vx` (R610, D9): VF is the old bit 7. -/
def execShl (x : Reg) (s : State) : Host.Outcome State Fault Refusal :=
  .next (s.advancePC.writeResultAndFlag x (s.readV x <<< 1) (shiftedOutLeft (s.readV x)))

/-- `RND Vx,kk` (R612): a fresh draw, masked. -/
def execRnd (x : Reg) (kk : Byte) (s : State) : Host.Outcome State Fault Refusal :=
  .next (s.advancePC.afterDrawByte.writeV x (s.drawByte &&& kk))

end Sys2Proof.Machine
end

