-- ==== Sys2Proof/Machine/ControlFlow.lean ====
section
/-! DEFINITION. Control flow: SYS, RET, JP, CALL, JP V0, SE, SNE (R500 to R510). Each meaning makes the default advance of R404
first; `PC` in a rule's pseudocode is the advanced one. -/

namespace Sys2Proof.Machine

/-- `SYS nnn` (R500): no effect beyond the default advance. -/
def execSys (_nnn : Addr) (s : State) : Host.Outcome State Fault Refusal := .next s.advancePC

/-- `RET` (R501): pops the most recent entry into PC; on an empty stack PC keeps the advanced value. -/
def execRet (s : State) : Host.Outcome State Fault Refusal := .next s.advancePC.popToPC

/-- `JP nnn` (R502). -/
def execJp (nnn : Addr) (s : State) : Host.Outcome State Fault Refusal := .next (s.advancePC.jump (addrOperand nnn))

/-- The effect of `CALL` after the default advance: the sticky fault on a full stack, else push and jump (R503). -/
def State.callSubroutine (s : State) (target : Word) : State :=
  if s.stackFull then s.overflowStack else (s.push s.PC).jump target

/-- `CALL nnn` (R503). -/
def execCall (nnn : Addr) (s : State) : Host.Outcome State Fault Refusal :=
  .next (s.advancePC.callSubroutine (addrOperand nnn))

/-- `JP V0,nnn` (R504). -/
def execJpV0 (nnn : Addr) (s : State) : Host.Outcome State Fault Refusal := .next (s.advancePC.jump (s.offsetTarget nnn))

/-- `SE Vx,kk` (R505). -/
def execSeImm (x : Reg) (kk : Byte) (s : State) : Host.Outcome State Fault Refusal :=
  .next (s.advancePC.skipIf (s.readV x == kk))

/-- `SNE Vx,kk` (R506). -/
def execSneImm (x : Reg) (kk : Byte) (s : State) : Host.Outcome State Fault Refusal :=
  .next (s.advancePC.skipIf (s.readV x != kk))

/-- `SE Vx,Vy` (R507). -/
def execSeReg (x y : Reg) (s : State) : Host.Outcome State Fault Refusal :=
  .next (s.advancePC.skipIf (s.readV x == s.readV y))

/-- `SNE Vx,Vy` (R508). -/
def execSneReg (x y : Reg) (s : State) : Host.Outcome State Fault Refusal :=
  .next (s.advancePC.skipIf (s.readV x != s.readV y))

end Sys2Proof.Machine
end

