-- ==== Sys2Proof/Machine/Display.lean ====
section
/-! DEFINITION. CLS and DRW (R710, R711). -/

namespace Sys2Proof.Machine

/-- `CLS` (R710). -/
def execCls (s : State) : Host.Outcome State Fault Refusal := .next s.advancePC.clearDisplay

/-- One toggle of a draw: `if Display.toggle(x, y): V[15] <- 1` (R711). -/
def State.drawPixel (s : State) (x y : Coord) : State :=
  if s.toggleErases x y then (s.togglePixel x y).writeV VF 1#8 else s.togglePixel x y

/-- One row of a sprite: its columns from left to right, only 1 bits toggle (R711). -/
def State.drawRow (s : State) (px : Byte) (y : Coord) (bits : Byte) : State :=
  (List.range 8).foldl (fun t c => if spriteBit bits c then t.drawPixel (pixelCoord px c) y else t) s

/-- The rows of a sprite, top to bottom, each read at `base + r` (R711). -/
def State.drawRows (s : State) (px py : Byte) (base n : Nat) : State :=
  (List.range n).foldl (fun t r => t.drawRow px (pixelCoord py r) (t.readMem (base + r))) s

/-- `DRW Vx,Vy,n` (R711, D15): Vx, Vy and I are sampled before VF is reset. -/
def execDrw (x y : Reg) (n : Nibble) (s : State) : Host.Outcome State Fault Refusal :=
  .next ((s.advancePC.writeV VF 0#8).drawRows (s.readV x) (s.readV y) s.I.toNat n.toNat)

end Sys2Proof.Machine
end

