-- ==== Sys2Proof/Machine/Keys.lean ====
section
/-! DEFINITION. SKP, SKNP and LD Vx,K (R801 to R803). The completion of a key-wait is no instruction: it is `State.keyDown`. -/

namespace Sys2Proof.Machine

/-- `SKP Vx` (R801): the key asked for is the register's value. -/
def execSkp (x : Reg) (s : State) : Host.Outcome State Fault Refusal :=
  .next ((s.advancePC.afterKeyQuery (s.readV x)).skipIf s.keyAnswer)

/-- `SKNP Vx` (R802). -/
def execSknp (x : Reg) (s : State) : Host.Outcome State Fault Refusal :=
  .next ((s.advancePC.afterKeyQuery (s.readV x)).skipIf (!s.keyAnswer))

/-- `LD Vx,K` (R803, C2): PC keeps the default advance, Vx is written by the completion. -/
def execLdVxK (x : Reg) (s : State) : Host.Outcome State Fault Refusal := .next (s.advancePC.armKeyWait x)

end Sys2Proof.Machine
end

