-- ==== Sys2Proof/Machine/TimersMemory.lean ====
section
/-! DEFINITION. Timer, address-register and memory operations (R900 to R908). None writes a flag (D10); none of the memory operations
changes I (D13). -/

namespace Sys2Proof.Machine

/-- `LD Vx,DT` (R900). -/
def execLdVxDT (x : Reg) (s : State) : Host.Outcome State Fault Refusal := .next (s.advancePC.writeV x s.DT)

/-- `LD DT,Vx` (R901). -/
def execLdDTVx (x : Reg) (s : State) : Host.Outcome State Fault Refusal := .next { s.advancePC with DT := s.readV x }

/-- `LD ST,Vx` (R902). -/
def execLdSTVx (x : Reg) (s : State) : Host.Outcome State Fault Refusal := .next { s.advancePC with ST := s.readV x }

/-- `LD I,nnn` (R903). -/
def execLdI (nnn : Addr) (s : State) : Host.Outcome State Fault Refusal := .next (s.advancePC.writeI (addrOperand nnn))

/-- `ADD I,Vx` (R904): wraps at 16 bits, no flag. -/
def execAddI (x : Reg) (s : State) : Host.Outcome State Fault Refusal :=
  .next (s.advancePC.writeI (s.I + (s.readV x).setWidth 16))

/-- `LD F,Vx` (R905). -/
def execLdF (x : Reg) (s : State) : Host.Outcome State Fault Refusal := .next (s.advancePC.writeI (s.glyphAddr x))

/-- The three stores of `LD B,Vx`, hundreds first (R906, R205). -/
def State.storeBcd (s : State) (v : Byte) : State :=
  ((s.writeMem (s.blockAddr 0) (bcdHundreds v)).writeMem (s.blockAddr 1) (bcdTens v)).writeMem (s.blockAddr 2) (bcdOnes v)

/-- `LD B,Vx` (R906). -/
def execLdB (x : Reg) (s : State) : Host.Outcome State Fault Refusal := .next (s.advancePC.storeBcd (s.readV x))

/-- `for k in 0 .. n-1: MemWrite(I + k, 1, V[k])` (R907). -/
def State.storeBlock (s : State) (n : Nat) : State :=
  (List.range n).foldl (fun t k => t.writeMem (t.blockAddr k) (t.readV (BitVec.ofNat 4 k))) s

/-- `LD [I],Vx` (R907). -/
def execLdMemVx (x : Reg) (s : State) : Host.Outcome State Fault Refusal := .next (s.advancePC.storeBlock (s.blockCount x))

/-- `for k in 0 .. n-1: V[k] <- MemRead(I + k, 1)` (R908). -/
def State.loadBlock (s : State) (n : Nat) : State :=
  (List.range n).foldl (fun t k => t.writeV (BitVec.ofNat 4 k) (t.readMem (t.blockAddr k))) s

/-- `LD Vx,[I]` (R908). -/
def execLdVxMem (x : Reg) (s : State) : Host.Outcome State Fault Refusal := .next (s.advancePC.loadBlock (s.blockCount x))

end Sys2Proof.Machine
end

