-- ==== Sys2Proof/Machine/Cycle.lean ====
section
/-! DEFINITION. The execution cycle (R400 to R407) and the driver's tick (R410 to R413): the engine's `step()`, the end of a tick, the
whole tick `advance(c)`, and one step of the machine, which is one `step()` invocation or one end of a tick (log entry 8). -/

namespace Sys2Proof.Machine

/-- `step()` does nothing: the core is paused or faulted (R400). -/
def State.halted (s : State) : Bool := s.paused || s.faulted.isSome

/-- `execute(decode(op))`, the default advance included; an unknown opcode has no effect beyond it (R402 to R406, R311). -/
def State.runDecoded (s : State) : Decoded → Host.Outcome State Fault Refusal
  | .instr i => exec i s
  | .unknown _ => .next s.advancePC

/-- The engine's `step()` (R407). -/
def State.stepInstruction (s : State) : Host.Outcome State Fault Refusal :=
  if s.halted then .next s else s.runDecoded (decode s.fetch)

/-- One decrement with floor 0 (R410, R1011). -/
def decrement (t : Byte) : Byte := if t = 0#8 then 0#8 else t - 1#8

/-- The timer update at the end of a tick: not while paused or faulted (R1011). -/
def State.updateTimers (s : State) : State :=
  if s.halted then s else { s with DT := decrement s.DT, ST := decrement s.ST }

/-- The audio report (R1012, D21): ST as the timer update left it, on paused ticks too (R412). -/
def State.reportAudio (s : State) : State := s.emit (if s.ST = 0#8 then .audioStop else .audioPlay)

/-- What a tick does after its burst: timer update, audio report, render request (R410, R1013); then the machine is between ticks. -/
def State.endTick (s : State) : State := { (s.updateTimers.reportAudio).emit .dispRender with phase := .between }

/-- A tick begins: its port operations are not those of the last one (R413). -/
def State.beginTick (s : State) : State := { s with ports := [] }

/-- `repeat n times: step()` (R410, R411). -/
def State.burst : Nat → State → Host.Outcome State Fault Refusal
  | 0, s => .next s
  | n + 1, s =>
    match s.stepInstruction with
    | .next t => State.burst n t
    | .fault r => .fault r
    | .refused r => .refused r

/-- `advance(c)`: one whole tick (R410). -/
def State.advance (c : Nat) (s : State) : Host.Outcome State Fault Refusal :=
  match State.burst c s.beginTick with
  | .next t => .next t.endTick
  | .fault r => .fault r
  | .refused r => .refused r

/-- The gap after a tick: the key-down events that arrive there, in order (R805, R806; log entry 6). -/
def State.deliverKeys (s : State) : State :=
  match s.keyInput with
  | [] => s
  | ks :: rest => ({ s with keyInput := rest } : State).keyDowns ks

/-- How many `step()` invocations the tick at hand still makes: all of them where none has begun (R411). -/
def State.stepsLeft (s : State) : Nat :=
  match s.phase with
  | .between => s.driver.cyclesPerTick
  | .burst n => n

/-- The state a step works on: a tick begins where none is in progress. -/
def State.openTick (s : State) : State :=
  match s.phase with
  | .between => s.beginTick
  | .burst _ => s

/-- A `step()` invocation of a burst is under way and `n` are left after it (R411). -/
def State.enterStep (s : State) (n : Nat) : State := { s.openTick with phase := .burst n }

/-- One step of the machine: a `step()` invocation while the burst has one left, else the end of the tick and the gap after it. -/
def machineStep (s : State) : Host.Outcome State Fault Refusal :=
  match s.stepsLeft with
  | 0 => .next s.openTick.endTick.deliverKeys
  | n + 1 => (s.enterStep n).stepInstruction

/-- The state made ready to execute: not paused, not faulted, with a `step()` invocation left. Nothing changes where it already is. -/
def State.readyToFetch (s : State) : State :=
  { s with
    paused := false
    waitReg := none
    faulted := none
    phase := if s.stepsLeft = 0 then .burst 1 else s.phase }

/-- A word stored where the next fetch reads it: high byte at PC, low byte at PC + 1 (R204, R401). -/
def State.storeFetchWord (s : State) (op : Word) : State :=
  (s.writeMem s.PC.toNat op.highByte).writeMem (s.PC.toNat + 1) op.lowByte

end Sys2Proof.Machine
end

