-- ==== Sys2Proof/Machine/Step.lean ====
section
/-! DEFINITION. The fixed names of a step and of a placed instruction word. -/

namespace Sys2Proof.Machine

/-- One step of the machine (R407, R410; log entry 8). -/
def step (s : State) : Host.Outcome State Fault Refusal := machineStep s

/-- The state with an instruction word of `nbits` bits stored where the next step fetches (R204, R401), and ready to execute it. The
word stands for a program loaded by the host (R1102, log entry 11). -/
def State.withFetchWord (s : State) (nbits w : Nat) : State :=
  s.readyToFetch.storeFetchWord (BitVec.ofNat 16 (w % 2 ^ nbits))

end Sys2Proof.Machine
end

