-- ==== Sys2Proof/Machine/HostInterface.lean ====
section
/-! DEFINITION. What the host, the driver and the keyboard do to the block from outside (R430, R431, R1104, R1105): construct,
loadProgram, start, stop, tick, key-down, and a run (R1122). -/

namespace Sys2Proof.Machine

/-- The load-time error of R1001. -/
inductive LoadError where
  /-- More than 3584 bytes (R1103). Answered by `State.loadProgram` to the host; nothing is written. Safe: no step is involved. -/
  | outOfMemory
  deriving DecidableEq, Repr

/-- `PROGRAM_START` (R8). -/
def programStart : Nat := 0x200

/-- `MAX_PROGRAM_BYTES` (R8). -/
def maxProgramBytes : Nat := 3584

/-- Construction (R1100, R1101) with the parameters of R9 as arguments; with their defaults it is `State.reset`. -/
def construct (params : Params) (ticksPerSecond cyclesPerTick : Nat) (font : Vector Byte 80) (fbInit : Framebuffer) : State :=
  { State.reset with
    mem := Memory.writeBytes [] 0 font.toList
    fb := fbInit
    params := params
    driver := { ticksPerSecond := ticksPerSecond, cyclesPerTick := cyclesPerTick, running := false } }

/-- `loadProgram(bytes)` (R1102, R1103). -/
def State.loadProgram (s : State) (bytes : List Byte) : Except LoadError State :=
  if bytes.length > maxProgramBytes then .error .outOfMemory
  else .ok { s with mem := s.mem.writeBytes programStart bytes }

/-- `stop()` (R422): engine state is not changed, a tick in progress goes on. -/
def State.stop (s : State) : State := { s with driver := { s.driver with running := false } }

/-- `start()` (R421) with the rate and the burst size of R1105: any prior run is stopped first, engine state is not changed. A tick in
progress keeps the burst it began with (log entry 15, DEDUCED, safe). -/
def State.start (s : State) (ticksPerSecond cyclesPerTick : Nat) : State :=
  { s.stop with driver := { ticksPerSecond := ticksPerSecond, cyclesPerTick := cyclesPerTick, running := true } }

/-- The rest of the tick in progress, if there is one: its remaining `step()` invocations, its end and the gap after it (R410, R422:
"a tick that has begun completes"). -/
def State.finishTick (s : State) : Host.Outcome State Fault Refusal :=
  match s.phase with
  | .between => .next s
  | .burst n =>
    match State.burst n s with
    | .next t => .next t.endTick.deliverKeys
    | .fault r => .fault r
    | .refused r => .refused r

/-- The driver's tick (R410, R420), which fires only between start and stop (R421, R422). Ticks are serialized (R423): a tick that fires
while another is in progress begins only when that one is complete (log entry 20, DEDUCED, safe). -/
def State.tick (s : State) : Host.Outcome State Fault Refusal :=
  if s.driver.running then
    match s.finishTick with
    | .next t => State.advance t.driver.cyclesPerTick t
    | .fault r => .fault r
    | .refused r => .refused r
  else .next s

/-- A key-down event at the `key_down` port (R805): between two ticks it takes effect at once; "an event that arrives while a tick is
running is applied after that tick ends" (log entry 18, DEDUCED, safe). -/
def State.keyArrives (s : State) (k : Key) : State :=
  match s.phase, s.keyInput with
  | .between, _ => s.keyDown k
  | .burst _, [] => { s with keyInput := [[k]] }
  | .burst _, ks :: rest => { s with keyInput := (ks ++ [k]) :: rest }

/-- The events of a run (R1122). -/
inductive RunEvent where
  /-- The driver fires a tick. -/
  | tick
  /-- The keyboard delivers a key-down event. -/
  | keyDown (k : Key)
  deriving DecidableEq, Repr

/-- One event of a run. -/
def State.event (s : State) : RunEvent → Host.Outcome State Fault Refusal
  | .tick => s.tick
  | .keyDown k => .next (s.keyArrives k)

/-- A run: a finite sequence of ticks and key-down events chosen by the host, in its order (R1007, R1122). -/
def State.run : List RunEvent → State → Host.Outcome State Fault Refusal
  | [], s => .next s
  | e :: rest, s =>
    match s.event e with
    | .next t => State.run rest t
    | .fault r => .fault r
    | .refused r => .refused r

end Sys2Proof.Machine
end

