-- ==== Sys2Proof/Safety.lean ====
section
/-! DEFINITION. What claims call a healthy state, a safe outcome and a legal state of the machine. -/

namespace Sys2Proof.Machine

/-- "A model treats a state with `faulted ≠ none` as a fault, never as a normal end of run" (R1003, R1122): healthy is not faulted. -/
def State.healthy (s : State) : Bool := s.faulted.isNone

/-- A safe outcome: the machine goes on, and not in the fault state (log entry 9). -/
def safeOutcome : Host.Outcome State Fault Refusal → Bool
  | .next t => t.healthy
  | .fault _ => false
  | .refused _ => false

/-- `waitReg ≠ none` exactly when `paused = true` (R120). -/
abbrev State.waitMatchesPause (s : State) : Prop := s.paused = s.waitReg.isSome

/-- With an unbounded stack there is never a fault (R121); with a finite `STACK_DEPTH` the stack never holds more entries (R108), and a
fault stands only where it is full (R503, R1003). -/
def State.stackWithinDepth (s : State) : Bool :=
  match s.params.stackDepth with
  | none => s.faulted.isNone
  | some depth => decide (s.stack.length ≤ depth) && (s.faulted.isNone || s.stack.length == depth)

/-- Inside a tick fewer `step()` invocations are left than a whole burst has (R411). -/
def State.burstWithinTick (s : State) : Bool :=
  match s.phase with
  | .between => true
  | .burst n => decide (n < s.driver.cyclesPerTick)

/-- The invariant of the machine: canonical memory, a key-wait latch exactly while paused, the stack within its depth, the burst within
its tick. -/
abbrev State.Inv (s : State) : Prop :=
  s.mem.wf ∧ s.waitMatchesPause ∧ s.stackWithinDepth = true ∧ s.burstWithinTick = true

end Sys2Proof.Machine
end

