-- ==== Sys2Proof/Certificates/Slice0/Obligations.lean ====
section
/-! DEFINITION. The statements for the provers, taken from the numbered rules of spec/. Values are stated as numbers wherever the rule
gives a number (R12), registers through `readV`, memory through the read of one byte. -/

namespace Sys2Proof.Claims

open Sys2Proof.Machine

/-- The parts of the state an instruction may name besides V, PC and memory. -/
inductive Part where
  /-- The address register. -/
  | I
  /-- The call stack. -/
  | stack
  /-- The delay timer. -/
  | DT
  /-- The sound timer. -/
  | ST
  /-- `paused` and `waitReg`. -/
  | wait
  /-- The sticky fault state. -/
  | faulted
  /-- The framebuffer. -/
  | fb
  /-- The record of port operations. -/
  | ports
  /-- The count of draws. -/
  | draws
  deriving DecidableEq, Repr

/-- A part has the same value in both states. -/
def Same : Part → State → State → Prop
  | .I, s, t => t.I = s.I
  | .stack, s, t => t.stack = s.stack
  | .DT, s, t => t.DT = s.DT
  | .ST, s, t => t.ST = s.ST
  | .wait, s, t => t.paused = s.paused ∧ t.waitReg = s.waitReg
  | .faulted, s, t => t.faulted = s.faulted
  | .fb, s, t => t.fb = s.fb
  | .ports, s, t => t.ports = s.ports
  | .draws, s, t => t.draws = s.draws

/-- Every part but the listed ones is unchanged, and so are the configuration, the position in the tick and the keyboard's input. -/
def KeepsPartsBut (parts : List Part) (s t : State) : Prop :=
  (∀ p, p ∉ parts → Same p s t) ∧
  t.params = s.params ∧ t.driver = s.driver ∧ t.phase = s.phase ∧ t.keyInput = s.keyInput

/-- Every register but the listed ones reads as before. -/
def KeepsRegsBut (regs : List Reg) (s t : State) : Prop := ∀ y, y ∉ regs → t.readV y = s.readV y

/-- Every byte of memory reads as before. -/
def KeepsMem (s t : State) : Prop := ∀ a, t.readMem a = s.readMem a

/-- PC is `n` further, wrapping at 16 bits (R105, R404). -/
def PCMoves (n : Nat) (s t : State) : Prop := t.PC.toNat = (s.PC.toNat + n) % 65536

/-- The frame of a form that stores nothing and does not touch PC beyond the default advance: the listed registers and parts may change,
all else is unchanged. -/
def Straight (regs : List Reg) (parts : List Part) (s t : State) : Prop :=
  PCMoves 2 s t ∧ KeepsRegsBut regs s t ∧ KeepsMem s t ∧ KeepsPartsBut parts s t

/-- The frame of a form that may change PC and the listed parts, and no register and no memory. -/
def ControlOnly (parts : List Part) (s t : State) : Prop :=
  KeepsRegsBut [] s t ∧ KeepsMem s t ∧ KeepsPartsBut parts s t

/-- The engine's own state of R100 is the same in both states. -/
def SameEngine (s t : State) : Prop :=
  KeepsRegsBut [] s t ∧ KeepsMem s t ∧ t.PC = s.PC ∧ t.I = s.I ∧ t.stack = s.stack ∧ t.DT = s.DT ∧ t.ST = s.ST ∧
  t.paused = s.paused ∧ t.waitReg = s.waitReg ∧ t.faulted = s.faulted

/-- `s.enterStep n` is `s` with `n` invocations left in the burst, a tick opened with no port operation yet where none was in progress; all
else is as in `s` (log entries 8 and 10). -/
def OpensStep (s : State) (n : Nat) : Prop :=
  SameEngine s (s.enterStep n) ∧ (s.enterStep n).fb = s.fb ∧ (s.enterStep n).phase = .burst n ∧
  (s.enterStep n).ports = (if s.phase = .between then [] else s.ports) ∧ (s.enterStep n).draws = s.draws ∧
  (s.enterStep n).params = s.params ∧ (s.enterStep n).driver = s.driver ∧ (s.enterStep n).keyInput = s.keyInput

/-- A result in Vx and then a flag in VF: VF holds the flag, also where x is 15; any other Vx holds the result (R16, R102). -/
def ResultThenFlag (x : Reg) (result flag : Nat) (t : State) : Prop :=
  (t.readV 15#4).toNat = flag ∧ (x ≠ 15#4 → (t.readV x).toNat = result)

/-- The number of registers of a block transfer: x of them, or x + 1 with `REG_BLOCK_INCLUSIVE` (R907, R908). -/
def BlockSize (s : State) (x : Reg) : Nat := x.toNat + (if s.params.regBlockInclusive = true then 1 else 0)

/-- The sprite of `DRW Vx,Vy,n` has a 1 bit for the pixel in column `c` and row `r`: sprite row `dr` is read at `I + dr`, its column `dc`
from the left, and the coordinates wrap (R701, R711). -/
def SpriteCovers (s : State) (x y : Reg) (n : Nibble) (c : Fin 64) (r : Fin 32) : Prop :=
  ∃ dr dc : Nat, dr < n.toNat ∧ dc < 8 ∧ ((s.readV x).toNat + dc) % 64 = c ∧ ((s.readV y).toNat + dr) % 32 = r ∧
    (s.readMem (s.I.toNat + dr)).toNat / 2 ^ (7 - dc) % 2 = 1

/-- A port operation that only the end of a tick makes (R413). -/
def EndsTick : PortOp → Prop
  | .audioPlay | .audioStop | .dispRender => True
  | _ => False

/-- The register an instruction names as its destination, where it names one (R104). -/
def destination : Instr → Option Reg
  | .ldImm x _ | .addImm x _ | .ldReg x _ | .orReg x _ | .andReg x _ | .xorReg x _ | .rnd x _ | .ldVxDT x => some x
  | .addReg x _ | .subReg x _ | .subnReg x _ | .shr x | .shl x => some x
  | _ => none

/-- The instructions that write VF as a flag (R102). -/
def writesFlag : Instr → Bool
  | .addReg _ _ | .subReg _ _ | .subnReg _ _ | .shr _ | .shl _ | .drw _ _ _ => true
  | _ => false

end Sys2Proof.Claims

open Sys2Proof Sys2Proof.Machine Sys2Proof.Claims

/-! Reset and construction -/

/-- R130, R1100, R1101: the reset table. The zeros of `mem[0x050..0xFFF]` (D3), the empty stack, `paused`, `waitReg` and `faulted` (D25)
are the spec's decisions, and the font bytes its general knowledge (GK3, log entry 2). -/
def Obligations.ResetHoldsTheTable : Prop :=
  (∀ x, State.reset.readV x = 0#8) ∧ State.reset.I = 0#16 ∧ State.reset.PC.toNat = 0x200 ∧
  State.reset.DT = 0#8 ∧ State.reset.ST = 0#8 ∧ State.reset.stack = [] ∧ State.reset.paused = false ∧
  State.reset.waitReg = none ∧ State.reset.faulted = none ∧
  (List.range 80).map State.reset.readMem =
    [0xF0, 0x90, 0x90, 0x90, 0xF0, 0x20, 0x60, 0x20, 0x20, 0x70, 0xF0, 0x10, 0xF0, 0x80, 0xF0, 0xF0, 0x10, 0xF0, 0x10, 0xF0] ++
    [0x90, 0x90, 0xF0, 0x10, 0x10, 0xF0, 0x80, 0xF0, 0x10, 0xF0, 0xF0, 0x80, 0xF0, 0x90, 0xF0, 0xF0, 0x10, 0x20, 0x40, 0x40] ++
    [0xF0, 0x90, 0xF0, 0x90, 0xF0, 0xF0, 0x90, 0xF0, 0x10, 0xF0, 0xF0, 0x90, 0xF0, 0x90, 0x90, 0xE0, 0x90, 0xE0, 0x90, 0xE0] ++
    [0xF0, 0x80, 0x80, 0x80, 0xF0, 0xE0, 0x90, 0x90, 0x90, 0xE0, 0xF0, 0x80, 0xF0, 0x80, 0xF0, 0xF0, 0x80, 0xF0, 0x80, 0x80] ∧
  ∀ a, 0x50 ≤ a → a < 4096 → State.reset.readMem a = 0#8

/-- R1101: construction with R9's parameters as arguments writes the font it is given at 0x000 and leaves the rest of memory 0x00 (D3),
whatever the font; the display holds what it is given (FB_INIT, D22). -/
def Obligations.ConstructTakesFontAndParameters : Prop :=
  ∀ (params : Params) (tps cpt : Nat) (font : Vector Byte 80) (fbInit : Framebuffer),
    (∀ k (h : k < 80), (construct params tps cpt font fbInit).readMem k = font[k]) ∧
    (∀ a, 80 ≤ a → a < 4096 → (construct params tps cpt font fbInit).readMem a = 0#8) ∧
    (construct params tps cpt font fbInit).fb = fbInit ∧
    (construct params tps cpt font fbInit).params = params ∧
    (construct params tps cpt font fbInit).driver.cyclesPerTick = cpt ∧
    (∀ x, (construct params tps cpt font fbInit).readV x = 0#8) ∧
    (construct params tps cpt font fbInit).PC.toNat = 0x200

/-! The invariant -/

/-- R108, R120, R121, R130: the reset state meets the invariant. Its empty stack, `paused`, `waitReg` and `faulted` are the spec's decision D25,
and its phase, from which the last clause holds, is log entry 8 (DESIGN CHOICE). -/
def Obligations.ResetSatisfiesInvariant : Prop := State.reset.Inv

/-- R108, R120, R121, R411: from every state that meets the invariant (memory canonical, `waitReg` held exactly while paused, the stack
within `STACK_DEPTH` and no fault without a full stack, fewer steps left than the burst has), a step gives a state that meets it. -/
def Obligations.EveryStepKeepsInvariant : Prop := ∀ s t, s.Inv → step s = .next t → t.Inv

/-! Encoding -/

/-- R301, R302, R317, R318: decoding the encoding of any well-formed instruction gives it back, with every operand. The patterns are the
spec's general knowledge (GK1, log entry 13). -/
def Obligations.DecodingAnEncodingGivesItBack : Prop := ∀ i, i.wellFormed = true → decode (encode i) = .instr i

/-- R306, R317: a word that decodes to an instruction is one of that row of the table, and agrees with the instruction's encoding in
every bit the instruction examines. -/
def Obligations.DecodedWordLiesInItsTableRow : Prop :=
  ∀ op i, decode op = .instr i →
    i.wellFormed = true ∧ op &&& rowMask i = rowMatch i ∧ op &&& ~~~(ignoredBits i) = encode i

/-- R311: exactly these words select no instruction, by the values of their fields (R302). -/
def Obligations.UnknownWordsAreExactlyTheListed : Prop :=
  ∀ op : Word, (∃ why, decode op = .unknown why) ↔
    (op.toNat / 4096 = 0x8 ∧ op.toNat % 16 ∈ [0x8, 0x9, 0xA, 0xB, 0xC, 0xD, 0xF]) ∨
    (op.toNat / 4096 = 0xE ∧ op.toNat % 256 ∉ [0x9E, 0xA1]) ∨
    (op.toNat / 4096 = 0xF ∧ op.toNat % 256 ∉ [0x07, 0x0A, 0x15, 0x18, 0x1E, 0x29, 0x33, 0x55, 0x65])

/-- R306 (D7), R310 (D8), R608 and R610 (D9): fields the hardware ignores do not change the decoding. The patterns other than 00E0
are the spec's general knowledge (GK1, log entry 13, PRESUMED). -/
def Obligations.IgnoredFieldsChangeNothing : Prop :=
  ∀ x y n : BitVec 4,
    decode (wordXKK 0x0#4 x 0xE0#8) = .instr .cls ∧ decode (wordXKK 0x0#4 x 0xEE#8) = .instr .ret ∧
    decode (wordXYN 0x5#4 x y n) = .instr (.seReg x y) ∧ decode (wordXYN 0x9#4 x y n) = .instr (.sneReg x y) ∧
    decode (wordXYN 0x8#4 x y 0x6#4) = .instr (.shr x) ∧ decode (wordXYN 0x8#4 x y 0xE#4) = .instr (.shl x)

/-- R317, R318: words of every family written out bit by bit; the decodings of the spec's V-DEC table and of its programs. -/
def Obligations.WordsOfEachFamilyDecode : Prop :=
  decode 0b0000000100100011#16 = .instr (.sys 0x123#12) ∧ decode 0b0000000011100000#16 = .instr .cls ∧
  decode 0b0001001000000000#16 = .instr (.jp 0x200#12) ∧ decode 0b0011001101000010#16 = .instr (.seImm 3#4 0x42#8) ∧
  decode 0b0110101000101011#16 = .instr (.ldImm 10#4 0x2B#8) ∧ decode 0b1000000100100100#16 = .instr (.addReg 1#4 2#4) ∧
  decode 0b1101000000010101#16 = .instr (.drw 0#4 1#4 5#4) ∧ decode 0b1110010110011110#16 = .instr (.skp 5#4) ∧
  decode 0b1111001100001010#16 = .instr (.ldVxK 3#4) ∧ decode 0b1111010000110011#16 = .instr (.ldB 4#4) ∧
  decode 0b1000000000001000#16 = .unknown (.group8 8#4) ∧ decode 0b1111111111111111#16 = .unknown (.groupF 0xFF#8)

/-! The step and the tick -/

/-- R203 (D2), R204, R401: the opcode is two bytes, the one at PC the high one; every address is reduced modulo 4096; and (R224, D28) a word
stored at PC is what the next fetch reads. -/
def Obligations.FetchIsBigEndianAndSeesStores : Prop :=
  ∀ s : State,
    s.fetch.toNat = (s.readMem (s.PC.toNat % 4096)).toNat * 256 + (s.readMem ((s.PC.toNat + 1) % 4096)).toNat ∧
    ∀ high low : Byte,
      ((s.writeMem s.PC.toNat high).writeMem (s.PC.toNat + 1) low).fetch.toNat = high.toNat * 256 + low.toNat

/-- R402 to R407: where a `step()` invocation is left, the core is neither paused nor faulted and the bytes at PC decode to an instruction,
the step is that instruction's meaning on the state with one invocation fewer left (and the tick opened, if none was: log entry 8). -/
def Obligations.StepRunsTheDecodedInstruction : Prop :=
  ∀ (s : State) (n : Nat) (i : Instr), s.stepsLeft = n + 1 → s.paused = false → s.faulted = none →
    decode s.fetch = .instr i →
    step s = exec i (s.enterStep n) ∧ OpensStep s n

/-- R311, R404, R406, R1004: an unknown opcode makes the default advance and nothing else, on the state with one invocation fewer left (log
entry 8). -/
def Obligations.UnknownOpcodeOnlyAdvances : Prop :=
  ∀ (s : State) (n : Nat) (why : UnknownOpcode), s.stepsLeft = n + 1 → s.paused = false → s.faulted = none →
    decode s.fetch = .unknown why → ∃ t, step s = .next t ∧ Straight [] [] (s.enterStep n) t ∧ OpensStep s n

/-- R400 (D5 for `faulted`): while paused or faulted a `step()` invocation reads and writes nothing and makes no collaborator call; one
invocation fewer is left in the burst (log entry 8). -/
def Obligations.HaltedStepDoesNothing : Prop :=
  ∀ (s : State) (n : Nat), s.stepsLeft = n + 1 → s.paused = true ∨ s.faulted ≠ none →
    step s = .next (s.enterStep n) ∧ OpensStep s n

/-- R1000: no step raises anything: every state has a next state. That this holds of a CALL on a full finite stack too is D5 and log entry 9
(DEDUCED): StackOverflow is a state, not a stop. -/
def Obligations.EveryStepAnswersNext : Prop := ∀ s, ∃ t, step s = .next t

/-- R410, R1011, R1012 (D21), R1013: the end of a tick decrements both timers with floor 0 unless paused or faulted (D5), then reports the
sound state from the ST so left, then requests a render; nothing else of the engine changes. -/
def Obligations.TickEndUpdatesTimersThenReports : Prop :=
  ∀ s : State,
    s.endTick.DT.toNat = (if s.paused = true ∨ s.faulted ≠ none then s.DT.toNat else s.DT.toNat - 1) ∧
    s.endTick.ST.toNat = (if s.paused = true ∨ s.faulted ≠ none then s.ST.toNat else s.ST.toNat - 1) ∧
    s.endTick.ports = s.ports ++ [if s.endTick.ST = 0#8 then .audioStop else .audioPlay, .dispRender] ∧
    s.endTick.phase = .between ∧ s.endTick.PC = s.PC ∧ KeepsRegsBut [] s s.endTick ∧ KeepsMem s s.endTick ∧
    (∀ p, p ∉ [Part.DT, Part.ST, Part.ports] → Same p s s.endTick) ∧
    s.endTick.params = s.params ∧ s.endTick.driver = s.driver ∧ s.endTick.keyInput = s.keyInput

/-- R410, R411, R805 (D18): where no `step()` invocation is left, the step is the end of the tick and then the gap's key events (log entries
6 and 8), the first of which completes a pending wait. -/
def Obligations.StepWithNoneLeftEndsTheTick : Prop :=
  ∀ s : State, s.stepsLeft = 0 → ∃ t, step s = .next t ∧ t = s.openTick.endTick.deliverKeys ∧ t.phase = .between ∧
    t.DT = s.endTick.DT ∧ t.ST = s.endTick.ST ∧ t.PC = s.PC ∧
    ∀ x k later rest, s.waitReg = some x → s.keyInput = (k :: later) :: rest →
      (t.readV x).toNat = k.toNat ∧ t.paused = false ∧ t.waitReg = none ∧ t.keyInput = rest ∧ KeepsRegsBut [x] s t

/-- R410, R411, R422, R423: from a tick boundary, the steps of one tick (its `CYCLES_PER_TICK` invocations and its end) are exactly `advance`,
followed by the key events of the gap; inside a tick with `n` invocations left, `n + 1` steps are exactly the rest of it (log entry 8). -/
def Obligations.StepsOfATickAreAdvance : Prop :=
  (∀ (s : State) (n : Nat), s.phase = .burst n → Host.Core.run Sys2Proof.core (n + 1) s = s.finishTick) ∧
  ∀ s : State, s.phase = .between →
    Host.Core.run Sys2Proof.core (s.driver.cyclesPerTick + 1) s =
      (match State.advance s.driver.cyclesPerTick s with
        | .next t => .next t.deliverKeys
        | .fault r => .fault r
        | .refused r => .refused r)

/-- R400, R412 (D20), R807, R1003: a tick of a paused or faulted core changes nothing of the engine and still makes its audio report and its
render request. -/
def Obligations.HaltedTickOnlyReports : Prop :=
  ∀ (c : Nat) (s : State), s.paused = true ∨ s.faulted ≠ none →
    ∃ t, State.advance c s = .next t ∧ SameEngine s t ∧ t.fb = s.fb ∧
      t.ports = [if s.ST = 0#8 then .audioStop else .audioPlay, .dispRender]

/-- R413, R1012, R1013: the port operations of a tick are those of its burst, none of them an audio or render call, then exactly one audio
call by the final ST, then exactly one render request. -/
def Obligations.TickEndsWithOneAudioCallAndOneRender : Prop :=
  ∀ (c : Nat) (s t : State), State.advance c s = .next t →
    ∃ before, t.ports = before ++ [if t.ST = 0#8 then .audioStop else .audioPlay, .dispRender] ∧
      ∀ p ∈ before, ¬ EndsTick p

/-- R109, R110, R1113: inside a burst DT and ST change only by the instructions that write them. -/
def Obligations.TimersChangeInABurstOnlyByTheirStores : Prop :=
  ∀ (s t : State) (n : Nat), s.stepsLeft = n + 1 → step s = .next t →
    (t.DT = s.DT ∨ ∃ x, decode s.fetch = .instr (.ldDTVx x) ∧ t.DT = s.readV x) ∧
    (t.ST = s.ST ∨ ∃ x, decode s.fetch = .instr (.ldSTVx x) ∧ t.ST = s.readV x)

/-! Key-wait -/

/-- R805, R806 (D18): a key-down event between two ticks completes a pending wait: Vx receives the code, `paused` and `waitReg` are cleared,
nothing else changes; without a wait it changes nothing. -/
def Obligations.KeyDownCompletesAPendingWait : Prop :=
  ∀ (s : State) (k : Key), s.phase = .between →
    (∀ x, s.waitReg = some x →
      ((s.keyArrives k).readV x).toNat = k.toNat ∧ (s.keyArrives k).paused = false ∧ (s.keyArrives k).waitReg = none ∧
      (s.keyArrives k).PC = s.PC ∧ KeepsRegsBut [x] s (s.keyArrives k) ∧ KeepsMem s (s.keyArrives k) ∧
      KeepsPartsBut [.wait] s (s.keyArrives k)) ∧
    (s.waitReg = none → s.keyArrives k = s)

/-- R805, R806 (D18): an event that arrives during a tick leaves the engine alone and joins the events of the gap after it, behind those
already to come there (log entries 6 and 18); in the gap the first event completes the wait and the rest are ignored. -/
def Obligations.GapEventsCompleteTheWaitOnce : Prop :=
  (∀ (s : State) (k : Key) (n : Nat), s.phase = .burst n →
    SameEngine s (s.keyArrives k) ∧ (s.keyInput = [] → (s.keyArrives k).keyInput = [[k]]) ∧
    ∀ ks rest, s.keyInput = ks :: rest → (s.keyArrives k).keyInput = (ks ++ [k]) :: rest) ∧
  (∀ (s : State) (x : Reg) (k : Key) (later : List Key) (rest : List (List Key)), s.waitReg = some x →
    s.keyInput = (k :: later) :: rest →
    (s.deliverKeys.readV x).toNat = k.toNat ∧ s.deliverKeys.paused = false ∧ s.deliverKeys.waitReg = none ∧
    s.deliverKeys.keyInput = rest ∧ s.deliverKeys.PC = s.PC ∧ KeepsRegsBut [x] s s.deliverKeys ∧ KeepsMem s s.deliverKeys) ∧
  (∀ s : State, s.waitReg = none → SameEngine s s.deliverKeys ∧ s.deliverKeys.keyInput = s.keyInput.tail)

/-- R113, R803, R805: `paused` is set only by `LD Vx,K` and cleared only by a key-down event in the gap after a tick. -/
def Obligations.PausedChangesOnlyByKeyWaitAndKey : Prop :=
  ∀ s t : State, step s = .next t →
    (s.paused = false → t.paused = true →
      ∃ n x, s.stepsLeft = n + 1 ∧ decode s.fetch = .instr (.ldVxK x) ∧ t.waitReg = some x) ∧
    (s.paused = true → t.paused = false →
      s.stepsLeft = 0 ∧ ∃ x k later rest, s.waitReg = some x ∧ s.keyInput = (k :: later) :: rest ∧
        (t.readV x).toNat = k.toNat ∧ t.PC = s.PC)

/-- R803 (C2, D19): `LD Vx,K` pauses the core, latches x and arms the hook; PC keeps the default advance and Vx its value. -/
def Obligations.KeyWaitPausesAndArms : Prop :=
  ∀ (x : Reg) (s : State), ∃ t, exec (.ldVxK x) s = .next t ∧ t.paused = true ∧ t.waitReg = some x ∧
    t.ports = s.ports ++ [.keyWaitArm] ∧ Straight [] [.wait, .ports] s t

/-- R801, R802 (D17): SKP and SKNP ask for the key that is the register's value and skip by the answer, which is free (log entry 5). -/
def Obligations.KeySkipsFollowTheAnswer : Prop :=
  ∀ (x : Reg) (s : State), ∃ (pressed : Bool) (t u : State),
    exec (.skp x) s = .next t ∧ exec (.sknp x) s = .next u ∧
    t.ports = s.ports ++ [.keyQuery (s.readV x) pressed] ∧ u.ports = s.ports ++ [.keyQuery (s.readV x) pressed] ∧
    PCMoves (if pressed = true then 4 else 2) s t ∧ PCMoves (if pressed = true then 2 else 4) s u ∧
    t.draws = s.draws + 1 ∧ u.draws = s.draws + 1 ∧
    ControlOnly [.ports, .draws] s t ∧ ControlOnly [.ports, .draws] s u

/-! Control flow -/

/-- R500 (D6): `SYS nnn` has no effect beyond the default advance. -/
def Obligations.SysOnlyAdvances : Prop :=
  ∀ (nnn : Addr) (s : State), ∃ t, exec (.sys nnn) s = .next t ∧ Straight [] [] s t

/-- R501, R1002: RET pops the most recently pushed entry into PC; on an empty stack it is a no-op and PC keeps the default advance. -/
def Obligations.RetPopsOrFallsThrough : Prop :=
  ∀ s : State, ∃ t, exec .ret s = .next t ∧ ControlOnly [.stack] s t ∧
    (∀ older w, s.stack = older ++ [w] → t.PC = w ∧ t.stack = older) ∧
    (s.stack = [] → PCMoves 2 s t ∧ t.stack = [])

/-- R502: `JP nnn`, encoded 1nnn, sets PC to nnn, zero-extended, and changes nothing else. -/
def Obligations.JpSetsPC : Prop :=
  ∀ (nnn : Addr) (s : State), decode (wordNNN 0x1#4 nnn) = .instr (.jp nnn) ∧
    ∃ t, exec (.jp nnn) s = .next t ∧ t.PC.toNat = nnn.toNat ∧ ControlOnly [] s t

/-- R503 (D5), R1003: CALL pushes the advanced PC and jumps; from a full stack of finite `STACK_DEPTH` it sets the sticky fault, and PC keeps
the default advance and the stack its entries. -/
def Obligations.CallPushesOrFaults : Prop :=
  ∀ (nnn : Addr) (s : State), ∃ t, exec (.call nnn) s = .next t ∧
    (s.params.stackDepth = some s.stack.length →
      t.faulted = some .stackOverflow ∧ PCMoves 2 s t ∧ ControlOnly [.faulted] s t) ∧
    (s.params.stackDepth ≠ some s.stack.length →
      t.PC.toNat = nnn.toNat ∧ ControlOnly [.stack] s t ∧
      ∃ w : Word, t.stack = s.stack ++ [w] ∧ w.toNat = (s.PC.toNat + 2) % 65536)

/-- R504: `JP V0,nnn` sets PC to nnn + V0, not reduced to 12 bits. -/
def Obligations.JpV0AddsTheWholeV0 : Prop :=
  ∀ (nnn : Addr) (s : State), ∃ t, exec (.jpV0 nnn) s = .next t ∧ t.PC.toNat = nnn.toNat + (s.readV 0#4).toNat ∧
    ControlOnly [] s t

/-- R505, R506: SE and SNE with an immediate skip one instruction exactly where the register is equal, or not equal, to it. -/
def Obligations.ImmediateSkips : Prop :=
  ∀ (x : Reg) (kk : Byte) (s : State), ∃ t u, exec (.seImm x kk) s = .next t ∧ exec (.sneImm x kk) s = .next u ∧
    PCMoves (if s.readV x = kk then 4 else 2) s t ∧ PCMoves (if s.readV x = kk then 2 else 4) s u ∧
    ControlOnly [] s t ∧ ControlOnly [] s u

/-- R507, R508: SE and SNE with two registers skip one instruction exactly where they are equal, or not equal. -/
def Obligations.RegisterSkips : Prop :=
  ∀ (x y : Reg) (s : State), ∃ t u, exec (.seReg x y) s = .next t ∧ exec (.sneReg x y) s = .next u ∧
    PCMoves (if s.readV x = s.readV y then 4 else 2) s t ∧ PCMoves (if s.readV x = s.readV y then 2 else 4) s u ∧
    ControlOnly [] s t ∧ ControlOnly [] s u

/-- R510 and the source's property quoted there: CALL followed immediately by RET leaves PC at the instruction after the CALL and everything
else as it was. -/
def Obligations.CallThenRetComesBack : Prop :=
  ∀ (nnn : Addr) (s t : State), s.params.stackDepth ≠ some s.stack.length → exec (.call nnn) s = .next t →
    ∃ u, exec .ret t = .next u ∧ PCMoves 2 s u ∧ ControlOnly [] s u

/-- R106: PC leaves the default advance only by JP, CALL, RET and JP V0, or moves one instruction further by a skip. -/
def Obligations.PCLeavesTheSequenceOnlyByControlFlow : Prop :=
  ∀ (i : Instr) (s t : State), exec i s = .next t → ¬ PCMoves 2 s t →
    (∃ nnn, i = .jp nnn) ∨ (∃ nnn, i = .call nnn) ∨ i = .ret ∨ (∃ nnn, i = .jpV0 nnn) ∨
    (PCMoves 4 s t ∧ ((∃ x kk, i = .seImm x kk ∨ i = .sneImm x kk) ∨ (∃ x y, i = .seReg x y ∨ i = .sneReg x y) ∨
      ∃ x, i = .skp x ∨ i = .sknp x))

/-- R108: the stack changes only by CALL, by one entry at its end, and by RET, which removes its last entry. -/
def Obligations.StackChangesOnlyByCallAndRet : Prop :=
  ∀ (i : Instr) (s t : State), exec i s = .next t → t.stack ≠ s.stack →
    (∃ nnn w, i = .call nnn ∧ t.stack = s.stack ++ [w]) ∨ (∃ w, i = .ret ∧ s.stack = t.stack ++ [w] ∧ t.PC = w)

/-- R121, R400, R1003 (D5): once set, the fault stays: every later step leaves PC, the stack, I, the timers, memory and the framebuffer alone,
and every register but that of a key-wait completed in a gap; without a pending wait the whole engine is unchanged. With an unbounded
stack no step sets the fault. -/
def Obligations.StackOverflowIsSticky : Prop :=
  ∀ s t : State, step s = .next t →
    (s.faulted ≠ none → t.faulted = s.faulted ∧ t.PC = s.PC ∧ t.stack = s.stack ∧ t.I = s.I ∧ t.DT = s.DT ∧
      t.ST = s.ST ∧ KeepsMem s t ∧ t.fb = s.fb ∧ (s.waitReg = none → SameEngine s t) ∧
      ∀ x, s.waitReg = some x → KeepsRegsBut [x] s t) ∧
    (s.params.stackDepth = none → s.faulted = none → t.faulted = none)

/-! Registers and ALU -/

/-- R600: `LD Vx,kk` writes kk into Vx and nothing else. -/
def Obligations.LdImmWritesVx : Prop :=
  ∀ (x : Reg) (kk : Byte) (s : State), ∃ t, exec (.ldImm x kk) s = .next t ∧ t.readV x = kk ∧ Straight [x] [] s t

/-- R601 (D10): `ADD Vx,kk` writes the wrapped sum into Vx and no flag. -/
def Obligations.AddImmWrapsWithoutFlag : Prop :=
  ∀ (x : Reg) (kk : Byte) (s : State), ∃ t, exec (.addImm x kk) s = .next t ∧
    (t.readV x).toNat = ((s.readV x).toNat + kk.toNat) % 256 ∧ Straight [x] [] s t

/-- R602: `LD Vx,Vy` copies Vy into Vx and nothing else. -/
def Obligations.LdRegCopies : Prop :=
  ∀ (x y : Reg) (s : State), ∃ t, exec (.ldReg x y) s = .next t ∧ t.readV x = s.readV y ∧ Straight [x] [] s t

/-- R603, R604, R605 (D10): OR, AND and XOR combine bit by bit into Vx and write no flag. -/
def Obligations.LogicalOpsWriteVxWithoutFlag : Prop :=
  ∀ (x y : Reg) (s : State), ∃ t u v,
    exec (.orReg x y) s = .next t ∧ exec (.andReg x y) s = .next u ∧ exec (.xorReg x y) s = .next v ∧
    (∀ k < 8, (t.readV x).getLsbD k = ((s.readV x).getLsbD k || (s.readV y).getLsbD k)) ∧
    (∀ k < 8, (u.readV x).getLsbD k = ((s.readV x).getLsbD k && (s.readV y).getLsbD k)) ∧
    (∀ k < 8, (v.readV x).getLsbD k = ((s.readV x).getLsbD k ^^ (s.readV y).getLsbD k)) ∧
    Straight [x] [] s t ∧ Straight [x] [] s u ∧ Straight [x] [] s v

/-- R606: `ADD Vx,Vy` wraps, and VF is 1 exactly where the exact sum exceeds 255; the flag wins where x is 15. -/
def Obligations.AddRegWrapsAndSetsCarry : Prop :=
  ∀ (x y : Reg) (s : State), ∃ t, exec (.addReg x y) s = .next t ∧
    ResultThenFlag x (((s.readV x).toNat + (s.readV y).toNat) % 256)
      (if (s.readV x).toNat + (s.readV y).toNat > 255 then 1 else 0) t ∧
    Straight [x, 15#4] [] s t

/-- R607: `SUB Vx,Vy` wraps, and VF is 1 exactly where Vx > Vy (strict); the flag wins where x is 15. -/
def Obligations.SubRegWrapsAndSetsStrictFlag : Prop :=
  ∀ (x y : Reg) (s : State), ∃ t, exec (.subReg x y) s = .next t ∧
    ResultThenFlag x (((s.readV x).toNat + 256 - (s.readV y).toNat) % 256)
      (if (s.readV x).toNat > (s.readV y).toNat then 1 else 0) t ∧
    Straight [x, 15#4] [] s t

/-- R609 (D11): `SUBN Vx,Vy` is Vy − Vx, and VF is 1 exactly where Vy > Vx (strict). -/
def Obligations.SubnRegReversesTheSubtraction : Prop :=
  ∀ (x y : Reg) (s : State), ∃ t, exec (.subnReg x y) s = .next t ∧
    ResultThenFlag x (((s.readV y).toNat + 256 - (s.readV x).toNat) % 256)
      (if (s.readV y).toNat > (s.readV x).toNat then 1 else 0) t ∧
    Straight [x, 15#4] [] s t

/-- R608, R610 (D9): SHR halves Vx and SHL doubles it, wrapping; VF is the bit shifted out. -/
def Obligations.ShiftsSetTheBitShiftedOut : Prop :=
  ∀ (x : Reg) (s : State), ∃ t u, exec (.shr x) s = .next t ∧ exec (.shl x) s = .next u ∧
    ResultThenFlag x ((s.readV x).toNat / 2) ((s.readV x).toNat % 2) t ∧
    ResultThenFlag x ((s.readV x).toNat * 2 % 256) ((s.readV x).toNat / 128) u ∧
    Straight [x, 15#4] [] s t ∧ Straight [x, 15#4] [] s u

/-- R612 (D23): `RND Vx,kk` takes one byte from the random source, whatever it is (log entry 4), and Vx is that byte AND kk. -/
def Obligations.RndMasksADraw : Prop :=
  ∀ (x : Reg) (kk : Byte) (s : State), ∃ (r : Byte) (t : State), exec (.rnd x kk) s = .next t ∧
    (∀ k < 8, (t.readV x).getLsbD k = (r.getLsbD k && kk.getLsbD k)) ∧
    t.ports = s.ports ++ [.rnd r] ∧ t.draws = s.draws + 1 ∧ Straight [x] [.ports, .draws] s t

/-- R102, R103 (D10): VF changes only by the six instructions that write it as a flag, by one that names it as its destination, or by an
inclusive block load of all registers. -/
def Obligations.VFChangesOnlyAsFlagOrDestination : Prop :=
  ∀ (i : Instr) (s t : State), exec i s = .next t → t.readV 15#4 ≠ s.readV 15#4 →
    writesFlag i = true ∨ destination i = some 15#4 ∨ (i = .ldVxMem 15#4 ∧ s.params.regBlockInclusive = true)

/-! Display -/

/-- R701, R702, R704: a toggle inverts exactly the pixel its coordinates wrap to, answers whether it was set, and (70, -1) wraps to (6, 31);
a clear turns every pixel off. -/
def Obligations.DisplayContract : Prop :=
  (∀ (fb : Framebuffer) (x y : Int) (c : Fin 64) (r : Fin 32),
    Framebuffer.pixel (Framebuffer.toggle fb x y) c r =
      (if x % 64 = c ∧ y % 32 = r then !(Framebuffer.pixel fb c r) else Framebuffer.pixel fb c r) ∧
    (x % 64 = c → y % 32 = r → Framebuffer.erased fb x y = Framebuffer.pixel fb c r) ∧
    Framebuffer.pixel Framebuffer.dark c r = false) ∧
  column 70 = 6 ∧ row (-1) = 31

/-- R702, R710: CLS turns every pixel off and changes nothing of the core beyond the default advance. -/
def Obligations.ClsTurnsEveryPixelOff : Prop :=
  ∀ s : State, ∃ t, exec .cls s = .next t ∧ (∀ c r, Framebuffer.pixel t.fb c r = false) ∧
    t.ports = s.ports ++ [.dispClear] ∧ Straight [] [.fb, .ports] s t

/-- R711, R701 (D13, D15, GK4): DRW inverts exactly the pixels its sprite covers, wrapping at the edges, and VF is 1 exactly where one of them
was set; operands are those of before the draw, also where x or y is 15; I, memory and every other register are unchanged. -/
def Obligations.DrwInvertsTheSpriteAndSetsCollision : Prop :=
  ∀ (x y : Reg) (n : Nibble) (s : State), ∃ t, exec (.drw x y n) s = .next t ∧
    (∀ c r, (SpriteCovers s x y n c r → Framebuffer.pixel t.fb c r = !(Framebuffer.pixel s.fb c r)) ∧
      (¬ SpriteCovers s x y n c r → Framebuffer.pixel t.fb c r = Framebuffer.pixel s.fb c r)) ∧
    ((∃ c r, SpriteCovers s x y n c r ∧ Framebuffer.pixel s.fb c r = true) → t.readV 15#4 = 1#8) ∧
    ((∀ c r, SpriteCovers s x y n c r → Framebuffer.pixel s.fb c r = false) → t.readV 15#4 = 0#8) ∧
    Straight [15#4] [.fb, .ports] s t

/-- R712: drawing a sprite where it covers no set pixel gives VF = 0; drawing it again at the same place restores every pixel and gives VF = 1
if the sprite has a 1 bit. Which pixels it covers rests on the bit order GK4 (log entry 14, PRESUMED), and the second draw covers the same ones
because I is unchanged (D13). -/
def Obligations.DrawingTwiceErases : Prop :=
  ∀ (x y : Reg) (n : Nibble) (s t : State), x ≠ 15#4 → y ≠ 15#4 →
    (∀ c r, SpriteCovers s x y n c r → Framebuffer.pixel s.fb c r = false) → exec (.drw x y n) s = .next t →
    t.readV 15#4 = 0#8 ∧ ∃ u, exec (.drw x y n) t = .next u ∧
      (∀ c r, Framebuffer.pixel u.fb c r = Framebuffer.pixel s.fb c r) ∧
      ((∃ c r, SpriteCovers s x y n c r) → u.readV 15#4 = 1#8)

/-! Timers, address register, memory -/

/-- R901: `LD DT,Vx` sets the delay timer to Vx and changes nothing else. -/
def Obligations.LdDTVxSetsDelayTimer : Prop :=
  ∀ (x : Reg) (s : State), ∃ t, exec (.ldDTVx x) s = .next t ∧ t.DT = s.readV x ∧ Straight [] [.DT] s t

/-- R900, R902: `LD Vx,DT` reads the delay timer as it stands, `LD ST,Vx` sets the sound timer; nothing else changes. -/
def Obligations.LdVxDTReadsAndLdSTVxSets : Prop :=
  ∀ (x : Reg) (s : State), ∃ t u, exec (.ldVxDT x) s = .next t ∧ exec (.ldSTVx x) s = .next u ∧
    t.readV x = s.DT ∧ Straight [x] [] s t ∧ u.ST = s.readV x ∧ Straight [] [.ST] s u

/-- R903, R904 (D10), R905 (D14): LD I zero-extends nnn, ADD I wraps at 16 bits without a flag, LD F multiplies the unmasked Vx by 5; each
writes I alone. -/
def Obligations.AddressRegisterOps : Prop :=
  ∀ (nnn : Addr) (x : Reg) (s : State), ∃ t u v,
    exec (.ldI nnn) s = .next t ∧ exec (.addI x) s = .next u ∧ exec (.ldF x) s = .next v ∧
    t.I.toNat = nnn.toNat ∧ u.I.toNat = (s.I.toNat + (s.readV x).toNat) % 65536 ∧ v.I.toNat = (s.readV x).toNat * 5 ∧
    Straight [] [.I] s t ∧ Straight [] [.I] s u ∧ Straight [] [.I] s v

/-- R906 (D2, D13), R205: LD B stores hundreds, tens and ones of Vx at I, I + 1 and I + 2; no other byte, register or part changes. -/
def Obligations.LdBStoresThreeDigits : Prop :=
  ∀ (x : Reg) (s : State), ∃ t, exec (.ldB x) s = .next t ∧
    (t.readMem s.I.toNat).toNat = (s.readV x).toNat / 100 ∧
    (t.readMem (s.I.toNat + 1)).toNat = (s.readV x).toNat / 10 % 10 ∧
    (t.readMem (s.I.toNat + 2)).toNat = (s.readV x).toNat % 10 ∧
    (∀ a, (∀ k < 3, (s.I.toNat + k) % 4096 ≠ a % 4096) → t.readMem a = s.readMem a) ∧
    PCMoves 2 s t ∧ KeepsRegsBut [] s t ∧ KeepsPartsBut [] s t

/-- R907 (D12, D13): `LD [I],Vx` stores V0 upward at I upward, x registers or, with `REG_BLOCK_INCLUSIVE`, x + 1; no other byte, register or
part changes. -/
def Obligations.LdMemVxStoresTheBlock : Prop :=
  ∀ (x : Reg) (s : State), ∃ t, exec (.ldMemVx x) s = .next t ∧
    (∀ k : Reg, k.toNat < BlockSize s x → t.readMem (s.I.toNat + k.toNat) = s.readV k) ∧
    (∀ a, (∀ k < BlockSize s x, (s.I.toNat + k) % 4096 ≠ a % 4096) → t.readMem a = s.readMem a) ∧
    PCMoves 2 s t ∧ KeepsRegsBut [] s t ∧ KeepsPartsBut [] s t

/-- R908 (D12, D13): `LD Vx,[I]` loads V0 upward from I upward, x registers or, with `REG_BLOCK_INCLUSIVE`, x + 1; every other register, all
of memory and I are unchanged. -/
def Obligations.LdVxMemLoadsTheBlock : Prop :=
  ∀ (x : Reg) (s : State), ∃ t, exec (.ldVxMem x) s = .next t ∧
    (∀ k : Reg, k.toNat < BlockSize s x → t.readV k = s.readMem (s.I.toNat + k.toNat)) ∧
    (∀ k : Reg, BlockSize s x ≤ k.toNat → t.readV k = s.readV k) ∧
    PCMoves 2 s t ∧ KeepsMem s t ∧ KeepsPartsBut [] s t

/-- R203 (D2), R208: a read gives the value of the latest write to its index, the addresses reduced modulo 4096, and a write leaves every
other byte alone. -/
def Obligations.ReadGivesTheLatestWrite : Prop :=
  ∀ (s : State) (a a' : Nat) (b : Byte),
    (a % 4096 = a' % 4096 → (s.writeMem a b).readMem a' = b) ∧
    (a % 4096 ≠ a' % 4096 → (s.writeMem a b).readMem a' = s.readMem a')

/-- R104, R207: no instruction but LD B and LD [I],Vx changes a byte of memory. -/
def Obligations.OnlyBcdAndBlockStoreWriteMemory : Prop :=
  ∀ (i : Instr) (s t : State) (a : Nat), exec i s = .next t → t.readMem a ≠ s.readMem a →
    (∃ x, i = .ldB x ∧ ∃ k < 3, (s.I.toNat + k) % 4096 = a % 4096) ∨
    (∃ x, i = .ldMemVx x ∧ ∃ k < BlockSize s x, (s.I.toNat + k) % 4096 = a % 4096)

/-! The host interface -/

/-- R1102, R1103 (D4): loadProgram copies the bytes from 0x200 upward and changes nothing else; more than 3584 bytes are refused with
OutOfMemory and nothing is written. -/
def Obligations.LoadProgramCopiesOrRefuses : Prop :=
  ∀ (s : State) (bytes : List Byte),
    (bytes.length ≤ 3584 → ∃ t, s.loadProgram bytes = .ok t ∧
      (∀ k (h : k < bytes.length), t.readMem (0x200 + k) = bytes[k]) ∧
      (∀ a, a < 4096 → a < 0x200 ∨ 0x200 + bytes.length ≤ a → t.readMem a = s.readMem a) ∧
      t.PC = s.PC ∧ KeepsRegsBut [] s t ∧ KeepsPartsBut [] s t) ∧
    (3584 < bytes.length → s.loadProgram bytes = .error .outOfMemory)

/-- R421, R422 (D32), R423: start and stop change the driver alone, so a tick in progress goes on with its burst (log entry 15, DEDUCED);
ticks fire only in between, with the burst size start was given, and a tick that fires while another is in progress is run after the
rest of that one (log entry 20, DEDUCED), so no two overlap. -/
def Obligations.StartAndStopLeaveTheEngineAlone : Prop :=
  ∀ (s : State) (tps cpt : Nat),
    (∃ d : Driver, s.start tps cpt = { s with driver := d } ∧ d.running = true ∧ d.cyclesPerTick = cpt ∧
      d.ticksPerSecond = tps) ∧
    (∃ d : Driver, s.stop = { s with driver := d } ∧ d.running = false ∧ d.cyclesPerTick = s.driver.cyclesPerTick) ∧
    SameEngine s (s.start tps cpt) ∧ SameEngine s s.stop ∧ s.stop.tick = .next s.stop ∧
    (s.phase = .between → (s.start tps cpt).tick = State.advance cpt (s.start tps cpt)) ∧
    (∀ n, s.phase = .burst n → ∃ t, (s.start tps cpt).finishTick = .next t ∧ t.phase = .between ∧
      (s.start tps cpt).tick = State.advance cpt t)
end

