-- ==== Sys2Proof/Laws/Memory.lean ====
section
/-! SUPPORT. The laws of memory: what a byte reads as after a write, on every list, canonical or not (R208), and that every operation
keeps the canonical form. -/

namespace Sys2Proof.Machine

theorem memIndex_lt (a : Nat) : memIndex a < memSize := Nat.mod_lt _ (by decide)

theorem Memory.lookup_insert (m : Memory) (a a' : Nat) (b : Byte) (h : ∀ e ∈ m, e.1 ≠ a) :
    Memory.lookup (Memory.insert a b m) a' = if a = a' then b else Memory.lookup m a' := by
  induction m with
  | nil => simp [Memory.insert, Memory.lookup]
  | cons e rest ih =>
    have ha : e.1 ≠ a := h e (by simp)
    have ih := ih fun e he => h e (by simp [he])
    unfold Memory.insert
    split
    · simp [Memory.lookup]
    · simp only [Memory.lookup, ih]
      by_cases h1 : e.1 = a'
      · have : a ≠ a' := fun h2 => ha (h1.trans h2.symm)
        simp [h1, this]
      · simp [h1]

theorem Memory.lookup_erase (m : Memory) (a a' : Nat) :
    Memory.lookup (Memory.erase a m) a' = if a = a' then Memory.unlisted a' else Memory.lookup m a' := by
  induction m with
  | nil => simp [Memory.erase, Memory.lookup]
  | cons e rest ih =>
    unfold Memory.erase at ih ⊢
    by_cases h : e.1 = a
    · have hb : (e.1 != a) = false := by simp [h]
      rw [List.filter_cons_of_neg (by simp [hb]), ih]
      by_cases ha : a = a' <;> simp [ha, Memory.lookup, h]
    · rw [List.filter_cons_of_pos (by simp [h])]
      simp only [Memory.lookup, ih]
      by_cases h1 : e.1 = a'
      · have : a ≠ a' := fun h2 => h (h1.trans h2.symm)
        simp [h1, this]
      · simp [h1]

theorem Memory.erase_ne (m : Memory) (a : Nat) : ∀ e ∈ Memory.erase a m, e.1 ≠ a := by
  intro e he
  simpa using (List.mem_filter.mp he).2

/-- Setting an index and reading any index: the set value there, every other index as before. -/
theorem Memory.lookup_put (m : Memory) (a a' : Nat) (b : Byte) :
    Memory.lookup (Memory.put m a b) a' = if a = a' then b else Memory.lookup m a' := by
  unfold Memory.put
  split
  · rename_i h
    rw [Memory.lookup_erase]
    split
    · rename_i h2; rw [h, h2]
    · rfl
  · rw [Memory.lookup_insert _ _ _ _ (Memory.erase_ne m a), Memory.lookup_erase]
    split <;> rfl

/-- Reading after a write (R203, R208): addresses that differ by a multiple of 4096 are the same byte. -/
theorem Memory.read_write (m : Memory) (a a' : Nat) (b : Byte) :
    (m.write a b).read a' = if memIndex a = memIndex a' then b else m.read a' :=
  Memory.lookup_put m (memIndex a) (memIndex a') b

theorem Memory.erase_wf (m : Memory) (a : Nat) (h : m.wf) : (Memory.erase a m).wf :=
  ⟨h.1.filter _, fun e he => h.2 e (List.mem_filter.mp he).1⟩

theorem Memory.mem_insert (m : Memory) (a : Nat) (b : Byte) (e : Host.Cell) :
    e ∈ Memory.insert a b m ↔ e = (a, b) ∨ e ∈ m := by
  induction m with
  | nil => simp [Memory.insert]
  | cons f rest ih =>
    unfold Memory.insert
    split
    · simp
    · simp only [List.mem_cons, ih]
      tauto

theorem Memory.insert_pairwise (m : Memory) (a : Nat) (b : Byte) (hs : m.Pairwise fun e f => e.1 < f.1)
    (hn : ∀ e ∈ m, e.1 ≠ a) : (Memory.insert a b m).Pairwise fun e f => e.1 < f.1 := by
  induction m with
  | nil => simp [Memory.insert]
  | cons e rest ih =>
    rw [List.pairwise_cons] at hs
    have hea : e.1 ≠ a := hn e (by simp)
    unfold Memory.insert
    split
    · rename_i hlt
      refine List.pairwise_cons.mpr ⟨fun f hf => ?_, List.pairwise_cons.mpr hs⟩
      rcases List.mem_cons.mp hf with rfl | hf
      · exact hlt
      · exact Nat.lt_trans hlt (hs.1 f hf)
    · rename_i hge
      refine List.pairwise_cons.mpr ⟨fun f hf => ?_, ih hs.2 fun e he => hn e (by simp [he])⟩
      rcases (Memory.mem_insert rest a b f).mp hf with rfl | hf
      · exact Nat.lt_of_le_of_ne (Nat.le_of_not_lt hge) hea
      · exact hs.1 f hf

theorem Memory.put_wf (m : Memory) (a : Nat) (b : Byte) (h : m.wf) (ha : a < memSize) : (Memory.put m a b).wf := by
  unfold Memory.put
  split
  · exact Memory.erase_wf m a h
  · rename_i hb
    have he := Memory.erase_wf m a h
    refine ⟨Memory.insert_pairwise _ a b he.1 (Memory.erase_ne m a), fun e hm => ?_⟩
    rcases (Memory.mem_insert _ a b e).mp hm with rfl | hm
    · exact ⟨ha, hb⟩
    · exact he.2 e hm

/-- A write of one byte keeps the canonical form. -/
theorem Memory.write_wf (m : Memory) (a : Nat) (b : Byte) (h : m.wf) : (m.write a b).wf :=
  Memory.put_wf m (memIndex a) b h (memIndex_lt a)

/-- A write of a byte sequence keeps the canonical form. -/
theorem Memory.writeBytes_wf (bs : List Byte) : ∀ (m : Memory) (a : Nat), m.wf → (m.writeBytes a bs).wf := by
  induction bs with
  | nil => exact fun m a h => h
  | cons b rest ih => exact fun m a h => ih (m.write a b) (a + 1) (m.write_wf a b h)

/-- The memory of the reset state is canonical. -/
theorem Memory.reset_wf : State.reset.mem.wf := by decide

/-- Two addresses less than 4096 apart are different bytes. -/
theorem memIndex_ne (a j k : Nat) (h : j ≠ k) (hj : j < memSize) (hk : k < memSize) :
    memIndex (a + j) ≠ memIndex (a + k) := by
  unfold memIndex memSize
  unfold memSize at hj hk
  omega

/-- Outside the written bytes, a byte reads as before. -/
theorem Memory.read_writeBytes_outside (bs : List Byte) : ∀ (m : Memory) (a a' : Nat),
    (∀ k, k < bs.length → memIndex (a + k) ≠ memIndex a') → (m.writeBytes a bs).read a' = m.read a' := by
  induction bs with
  | nil => intros; rfl
  | cons b rest ih =>
    intro m a a' h
    rw [Memory.writeBytes, ih _ _ _ fun k hk => ?_, Memory.read_write, if_neg (by simpa using h 0 (by simp))]
    have := h (k + 1) (by simpa using hk)
    rwa [show a + 1 + k = a + (k + 1) by omega]

/-- The written bytes read as written, where they fit in memory. -/
theorem Memory.read_writeBytes (bs : List Byte) : ∀ (m : Memory) (a k : Nat) (h : k < bs.length), bs.length ≤ memSize →
    (m.writeBytes a bs).read (a + k) = bs[k] := by
  induction bs with
  | nil => intro m a k h; simp at h
  | cons b rest ih =>
    intro m a k h hl
    have hl' : rest.length + 1 ≤ memSize := hl
    cases k with
    | zero =>
      rw [Memory.writeBytes, Memory.read_writeBytes_outside]
      · simp [Memory.read_write]
      · intro k hk
        rw [show a + 1 + k = a + (k + 1) by omega]
        exact memIndex_ne a (k + 1) 0 (by omega) (by omega) (by omega)
    | succ j =>
      have hj : j < rest.length := by simpa using h
      rw [Memory.writeBytes, show a + (j + 1) = a + 1 + j by omega, ih _ _ _ hj (by omega)]
      rfl

end Sys2Proof.Machine
end

