-- ==== Sys2Proof/Laws/State.lean ====
section
/-! SUPPORT. One lemma per field per update of the state, each true by definition, so that no proof unfolds a record update. -/

namespace Sys2Proof.Machine

@[simp] theorem State.writeV_mem (s : State) (x : Reg) (b : Byte) : (s.writeV x b).mem = s.mem := rfl
@[simp] theorem State.writeV_V (s : State) (x : Reg) (b : Byte) : (s.writeV x b).V = s.V.set x.toNat b x.isLt := rfl
@[simp] theorem State.writeV_I (s : State) (x : Reg) (b : Byte) : (s.writeV x b).I = s.I := rfl
@[simp] theorem State.writeV_PC (s : State) (x : Reg) (b : Byte) : (s.writeV x b).PC = s.PC := rfl
@[simp] theorem State.writeV_stack (s : State) (x : Reg) (b : Byte) : (s.writeV x b).stack = s.stack := rfl
@[simp] theorem State.writeV_DT (s : State) (x : Reg) (b : Byte) : (s.writeV x b).DT = s.DT := rfl
@[simp] theorem State.writeV_ST (s : State) (x : Reg) (b : Byte) : (s.writeV x b).ST = s.ST := rfl
@[simp] theorem State.writeV_paused (s : State) (x : Reg) (b : Byte) : (s.writeV x b).paused = s.paused := rfl
@[simp] theorem State.writeV_waitReg (s : State) (x : Reg) (b : Byte) : (s.writeV x b).waitReg = s.waitReg := rfl
@[simp] theorem State.writeV_faulted (s : State) (x : Reg) (b : Byte) : (s.writeV x b).faulted = s.faulted := rfl
@[simp] theorem State.writeV_fb (s : State) (x : Reg) (b : Byte) : (s.writeV x b).fb = s.fb := rfl
@[simp] theorem State.writeV_params (s : State) (x : Reg) (b : Byte) : (s.writeV x b).params = s.params := rfl
@[simp] theorem State.writeV_driver (s : State) (x : Reg) (b : Byte) : (s.writeV x b).driver = s.driver := rfl
@[simp] theorem State.writeV_phase (s : State) (x : Reg) (b : Byte) : (s.writeV x b).phase = s.phase := rfl
@[simp] theorem State.writeV_ports (s : State) (x : Reg) (b : Byte) : (s.writeV x b).ports = s.ports := rfl
@[simp] theorem State.writeV_keyInput (s : State) (x : Reg) (b : Byte) : (s.writeV x b).keyInput = s.keyInput := rfl
@[simp] theorem State.writeV_draws (s : State) (x : Reg) (b : Byte) : (s.writeV x b).draws = s.draws := rfl

@[simp] theorem State.writeMem_mem (s : State) (a : Nat) (b : Byte) : (s.writeMem a b).mem = s.mem.write a b := rfl
@[simp] theorem State.writeMem_V (s : State) (a : Nat) (b : Byte) : (s.writeMem a b).V = s.V := rfl
@[simp] theorem State.writeMem_I (s : State) (a : Nat) (b : Byte) : (s.writeMem a b).I = s.I := rfl
@[simp] theorem State.writeMem_PC (s : State) (a : Nat) (b : Byte) : (s.writeMem a b).PC = s.PC := rfl
@[simp] theorem State.writeMem_stack (s : State) (a : Nat) (b : Byte) : (s.writeMem a b).stack = s.stack := rfl
@[simp] theorem State.writeMem_DT (s : State) (a : Nat) (b : Byte) : (s.writeMem a b).DT = s.DT := rfl
@[simp] theorem State.writeMem_ST (s : State) (a : Nat) (b : Byte) : (s.writeMem a b).ST = s.ST := rfl
@[simp] theorem State.writeMem_paused (s : State) (a : Nat) (b : Byte) : (s.writeMem a b).paused = s.paused := rfl
@[simp] theorem State.writeMem_waitReg (s : State) (a : Nat) (b : Byte) : (s.writeMem a b).waitReg = s.waitReg := rfl
@[simp] theorem State.writeMem_faulted (s : State) (a : Nat) (b : Byte) : (s.writeMem a b).faulted = s.faulted := rfl
@[simp] theorem State.writeMem_fb (s : State) (a : Nat) (b : Byte) : (s.writeMem a b).fb = s.fb := rfl
@[simp] theorem State.writeMem_params (s : State) (a : Nat) (b : Byte) : (s.writeMem a b).params = s.params := rfl
@[simp] theorem State.writeMem_driver (s : State) (a : Nat) (b : Byte) : (s.writeMem a b).driver = s.driver := rfl
@[simp] theorem State.writeMem_phase (s : State) (a : Nat) (b : Byte) : (s.writeMem a b).phase = s.phase := rfl
@[simp] theorem State.writeMem_ports (s : State) (a : Nat) (b : Byte) : (s.writeMem a b).ports = s.ports := rfl
@[simp] theorem State.writeMem_keyInput (s : State) (a : Nat) (b : Byte) : (s.writeMem a b).keyInput = s.keyInput := rfl
@[simp] theorem State.writeMem_draws (s : State) (a : Nat) (b : Byte) : (s.writeMem a b).draws = s.draws := rfl

@[simp] theorem State.advancePC_mem (s : State) : (s.advancePC).mem = s.mem := rfl
@[simp] theorem State.advancePC_V (s : State) : (s.advancePC).V = s.V := rfl
@[simp] theorem State.advancePC_I (s : State) : (s.advancePC).I = s.I := rfl
@[simp] theorem State.advancePC_PC (s : State) : (s.advancePC).PC = s.PC + 2#16 := rfl
@[simp] theorem State.advancePC_stack (s : State) : (s.advancePC).stack = s.stack := rfl
@[simp] theorem State.advancePC_DT (s : State) : (s.advancePC).DT = s.DT := rfl
@[simp] theorem State.advancePC_ST (s : State) : (s.advancePC).ST = s.ST := rfl
@[simp] theorem State.advancePC_paused (s : State) : (s.advancePC).paused = s.paused := rfl
@[simp] theorem State.advancePC_waitReg (s : State) : (s.advancePC).waitReg = s.waitReg := rfl
@[simp] theorem State.advancePC_faulted (s : State) : (s.advancePC).faulted = s.faulted := rfl
@[simp] theorem State.advancePC_fb (s : State) : (s.advancePC).fb = s.fb := rfl
@[simp] theorem State.advancePC_params (s : State) : (s.advancePC).params = s.params := rfl
@[simp] theorem State.advancePC_driver (s : State) : (s.advancePC).driver = s.driver := rfl
@[simp] theorem State.advancePC_phase (s : State) : (s.advancePC).phase = s.phase := rfl
@[simp] theorem State.advancePC_ports (s : State) : (s.advancePC).ports = s.ports := rfl
@[simp] theorem State.advancePC_keyInput (s : State) : (s.advancePC).keyInput = s.keyInput := rfl
@[simp] theorem State.advancePC_draws (s : State) : (s.advancePC).draws = s.draws := rfl

@[simp] theorem State.jump_mem (s : State) (w : Word) : (s.jump w).mem = s.mem := rfl
@[simp] theorem State.jump_V (s : State) (w : Word) : (s.jump w).V = s.V := rfl
@[simp] theorem State.jump_I (s : State) (w : Word) : (s.jump w).I = s.I := rfl
@[simp] theorem State.jump_PC (s : State) (w : Word) : (s.jump w).PC = w := rfl
@[simp] theorem State.jump_stack (s : State) (w : Word) : (s.jump w).stack = s.stack := rfl
@[simp] theorem State.jump_DT (s : State) (w : Word) : (s.jump w).DT = s.DT := rfl
@[simp] theorem State.jump_ST (s : State) (w : Word) : (s.jump w).ST = s.ST := rfl
@[simp] theorem State.jump_paused (s : State) (w : Word) : (s.jump w).paused = s.paused := rfl
@[simp] theorem State.jump_waitReg (s : State) (w : Word) : (s.jump w).waitReg = s.waitReg := rfl
@[simp] theorem State.jump_faulted (s : State) (w : Word) : (s.jump w).faulted = s.faulted := rfl
@[simp] theorem State.jump_fb (s : State) (w : Word) : (s.jump w).fb = s.fb := rfl
@[simp] theorem State.jump_params (s : State) (w : Word) : (s.jump w).params = s.params := rfl
@[simp] theorem State.jump_driver (s : State) (w : Word) : (s.jump w).driver = s.driver := rfl
@[simp] theorem State.jump_phase (s : State) (w : Word) : (s.jump w).phase = s.phase := rfl
@[simp] theorem State.jump_ports (s : State) (w : Word) : (s.jump w).ports = s.ports := rfl
@[simp] theorem State.jump_keyInput (s : State) (w : Word) : (s.jump w).keyInput = s.keyInput := rfl
@[simp] theorem State.jump_draws (s : State) (w : Word) : (s.jump w).draws = s.draws := rfl

@[simp] theorem State.writeI_mem (s : State) (w : Word) : (s.writeI w).mem = s.mem := rfl
@[simp] theorem State.writeI_V (s : State) (w : Word) : (s.writeI w).V = s.V := rfl
@[simp] theorem State.writeI_I (s : State) (w : Word) : (s.writeI w).I = w := rfl
@[simp] theorem State.writeI_PC (s : State) (w : Word) : (s.writeI w).PC = s.PC := rfl
@[simp] theorem State.writeI_stack (s : State) (w : Word) : (s.writeI w).stack = s.stack := rfl
@[simp] theorem State.writeI_DT (s : State) (w : Word) : (s.writeI w).DT = s.DT := rfl
@[simp] theorem State.writeI_ST (s : State) (w : Word) : (s.writeI w).ST = s.ST := rfl
@[simp] theorem State.writeI_paused (s : State) (w : Word) : (s.writeI w).paused = s.paused := rfl
@[simp] theorem State.writeI_waitReg (s : State) (w : Word) : (s.writeI w).waitReg = s.waitReg := rfl
@[simp] theorem State.writeI_faulted (s : State) (w : Word) : (s.writeI w).faulted = s.faulted := rfl
@[simp] theorem State.writeI_fb (s : State) (w : Word) : (s.writeI w).fb = s.fb := rfl
@[simp] theorem State.writeI_params (s : State) (w : Word) : (s.writeI w).params = s.params := rfl
@[simp] theorem State.writeI_driver (s : State) (w : Word) : (s.writeI w).driver = s.driver := rfl
@[simp] theorem State.writeI_phase (s : State) (w : Word) : (s.writeI w).phase = s.phase := rfl
@[simp] theorem State.writeI_ports (s : State) (w : Word) : (s.writeI w).ports = s.ports := rfl
@[simp] theorem State.writeI_keyInput (s : State) (w : Word) : (s.writeI w).keyInput = s.keyInput := rfl
@[simp] theorem State.writeI_draws (s : State) (w : Word) : (s.writeI w).draws = s.draws := rfl

@[simp] theorem State.push_mem (s : State) (w : Word) : (s.push w).mem = s.mem := rfl
@[simp] theorem State.push_V (s : State) (w : Word) : (s.push w).V = s.V := rfl
@[simp] theorem State.push_I (s : State) (w : Word) : (s.push w).I = s.I := rfl
@[simp] theorem State.push_PC (s : State) (w : Word) : (s.push w).PC = s.PC := rfl
@[simp] theorem State.push_stack (s : State) (w : Word) : (s.push w).stack = s.stack ++ [w] := rfl
@[simp] theorem State.push_DT (s : State) (w : Word) : (s.push w).DT = s.DT := rfl
@[simp] theorem State.push_ST (s : State) (w : Word) : (s.push w).ST = s.ST := rfl
@[simp] theorem State.push_paused (s : State) (w : Word) : (s.push w).paused = s.paused := rfl
@[simp] theorem State.push_waitReg (s : State) (w : Word) : (s.push w).waitReg = s.waitReg := rfl
@[simp] theorem State.push_faulted (s : State) (w : Word) : (s.push w).faulted = s.faulted := rfl
@[simp] theorem State.push_fb (s : State) (w : Word) : (s.push w).fb = s.fb := rfl
@[simp] theorem State.push_params (s : State) (w : Word) : (s.push w).params = s.params := rfl
@[simp] theorem State.push_driver (s : State) (w : Word) : (s.push w).driver = s.driver := rfl
@[simp] theorem State.push_phase (s : State) (w : Word) : (s.push w).phase = s.phase := rfl
@[simp] theorem State.push_ports (s : State) (w : Word) : (s.push w).ports = s.ports := rfl
@[simp] theorem State.push_keyInput (s : State) (w : Word) : (s.push w).keyInput = s.keyInput := rfl
@[simp] theorem State.push_draws (s : State) (w : Word) : (s.push w).draws = s.draws := rfl

@[simp] theorem State.overflowStack_mem (s : State) : (s.overflowStack).mem = s.mem := rfl
@[simp] theorem State.overflowStack_V (s : State) : (s.overflowStack).V = s.V := rfl
@[simp] theorem State.overflowStack_I (s : State) : (s.overflowStack).I = s.I := rfl
@[simp] theorem State.overflowStack_PC (s : State) : (s.overflowStack).PC = s.PC := rfl
@[simp] theorem State.overflowStack_stack (s : State) : (s.overflowStack).stack = s.stack := rfl
@[simp] theorem State.overflowStack_DT (s : State) : (s.overflowStack).DT = s.DT := rfl
@[simp] theorem State.overflowStack_ST (s : State) : (s.overflowStack).ST = s.ST := rfl
@[simp] theorem State.overflowStack_paused (s : State) : (s.overflowStack).paused = s.paused := rfl
@[simp] theorem State.overflowStack_waitReg (s : State) : (s.overflowStack).waitReg = s.waitReg := rfl
@[simp] theorem State.overflowStack_faulted (s : State) : (s.overflowStack).faulted = some .stackOverflow := rfl
@[simp] theorem State.overflowStack_fb (s : State) : (s.overflowStack).fb = s.fb := rfl
@[simp] theorem State.overflowStack_params (s : State) : (s.overflowStack).params = s.params := rfl
@[simp] theorem State.overflowStack_driver (s : State) : (s.overflowStack).driver = s.driver := rfl
@[simp] theorem State.overflowStack_phase (s : State) : (s.overflowStack).phase = s.phase := rfl
@[simp] theorem State.overflowStack_ports (s : State) : (s.overflowStack).ports = s.ports := rfl
@[simp] theorem State.overflowStack_keyInput (s : State) : (s.overflowStack).keyInput = s.keyInput := rfl
@[simp] theorem State.overflowStack_draws (s : State) : (s.overflowStack).draws = s.draws := rfl

@[simp] theorem State.emit_mem (s : State) (p : PortOp) : (s.emit p).mem = s.mem := rfl
@[simp] theorem State.emit_V (s : State) (p : PortOp) : (s.emit p).V = s.V := rfl
@[simp] theorem State.emit_I (s : State) (p : PortOp) : (s.emit p).I = s.I := rfl
@[simp] theorem State.emit_PC (s : State) (p : PortOp) : (s.emit p).PC = s.PC := rfl
@[simp] theorem State.emit_stack (s : State) (p : PortOp) : (s.emit p).stack = s.stack := rfl
@[simp] theorem State.emit_DT (s : State) (p : PortOp) : (s.emit p).DT = s.DT := rfl
@[simp] theorem State.emit_ST (s : State) (p : PortOp) : (s.emit p).ST = s.ST := rfl
@[simp] theorem State.emit_paused (s : State) (p : PortOp) : (s.emit p).paused = s.paused := rfl
@[simp] theorem State.emit_waitReg (s : State) (p : PortOp) : (s.emit p).waitReg = s.waitReg := rfl
@[simp] theorem State.emit_faulted (s : State) (p : PortOp) : (s.emit p).faulted = s.faulted := rfl
@[simp] theorem State.emit_fb (s : State) (p : PortOp) : (s.emit p).fb = s.fb := rfl
@[simp] theorem State.emit_params (s : State) (p : PortOp) : (s.emit p).params = s.params := rfl
@[simp] theorem State.emit_driver (s : State) (p : PortOp) : (s.emit p).driver = s.driver := rfl
@[simp] theorem State.emit_phase (s : State) (p : PortOp) : (s.emit p).phase = s.phase := rfl
@[simp] theorem State.emit_ports (s : State) (p : PortOp) : (s.emit p).ports = s.ports ++ [p] := rfl
@[simp] theorem State.emit_keyInput (s : State) (p : PortOp) : (s.emit p).keyInput = s.keyInput := rfl
@[simp] theorem State.emit_draws (s : State) (p : PortOp) : (s.emit p).draws = s.draws := rfl

@[simp] theorem State.afterDrawByte_mem (s : State) : (s.afterDrawByte).mem = s.mem := rfl
@[simp] theorem State.afterDrawByte_V (s : State) : (s.afterDrawByte).V = s.V := rfl
@[simp] theorem State.afterDrawByte_I (s : State) : (s.afterDrawByte).I = s.I := rfl
@[simp] theorem State.afterDrawByte_PC (s : State) : (s.afterDrawByte).PC = s.PC := rfl
@[simp] theorem State.afterDrawByte_stack (s : State) : (s.afterDrawByte).stack = s.stack := rfl
@[simp] theorem State.afterDrawByte_DT (s : State) : (s.afterDrawByte).DT = s.DT := rfl
@[simp] theorem State.afterDrawByte_ST (s : State) : (s.afterDrawByte).ST = s.ST := rfl
@[simp] theorem State.afterDrawByte_paused (s : State) : (s.afterDrawByte).paused = s.paused := rfl
@[simp] theorem State.afterDrawByte_waitReg (s : State) : (s.afterDrawByte).waitReg = s.waitReg := rfl
@[simp] theorem State.afterDrawByte_faulted (s : State) : (s.afterDrawByte).faulted = s.faulted := rfl
@[simp] theorem State.afterDrawByte_fb (s : State) : (s.afterDrawByte).fb = s.fb := rfl
@[simp] theorem State.afterDrawByte_params (s : State) : (s.afterDrawByte).params = s.params := rfl
@[simp] theorem State.afterDrawByte_driver (s : State) : (s.afterDrawByte).driver = s.driver := rfl
@[simp] theorem State.afterDrawByte_phase (s : State) : (s.afterDrawByte).phase = s.phase := rfl
@[simp] theorem State.afterDrawByte_ports (s : State) : (s.afterDrawByte).ports = s.ports ++ [.rnd s.drawByte] := rfl
@[simp] theorem State.afterDrawByte_keyInput (s : State) : (s.afterDrawByte).keyInput = s.keyInput := rfl
@[simp] theorem State.afterDrawByte_draws (s : State) : (s.afterDrawByte).draws = s.draws + 1 := rfl

@[simp] theorem State.afterKeyQuery_mem (s : State) (k : Byte) : (s.afterKeyQuery k).mem = s.mem := rfl
@[simp] theorem State.afterKeyQuery_V (s : State) (k : Byte) : (s.afterKeyQuery k).V = s.V := rfl
@[simp] theorem State.afterKeyQuery_I (s : State) (k : Byte) : (s.afterKeyQuery k).I = s.I := rfl
@[simp] theorem State.afterKeyQuery_PC (s : State) (k : Byte) : (s.afterKeyQuery k).PC = s.PC := rfl
@[simp] theorem State.afterKeyQuery_stack (s : State) (k : Byte) : (s.afterKeyQuery k).stack = s.stack := rfl
@[simp] theorem State.afterKeyQuery_DT (s : State) (k : Byte) : (s.afterKeyQuery k).DT = s.DT := rfl
@[simp] theorem State.afterKeyQuery_ST (s : State) (k : Byte) : (s.afterKeyQuery k).ST = s.ST := rfl
@[simp] theorem State.afterKeyQuery_paused (s : State) (k : Byte) : (s.afterKeyQuery k).paused = s.paused := rfl
@[simp] theorem State.afterKeyQuery_waitReg (s : State) (k : Byte) : (s.afterKeyQuery k).waitReg = s.waitReg := rfl
@[simp] theorem State.afterKeyQuery_faulted (s : State) (k : Byte) : (s.afterKeyQuery k).faulted = s.faulted := rfl
@[simp] theorem State.afterKeyQuery_fb (s : State) (k : Byte) : (s.afterKeyQuery k).fb = s.fb := rfl
@[simp] theorem State.afterKeyQuery_params (s : State) (k : Byte) : (s.afterKeyQuery k).params = s.params := rfl
@[simp] theorem State.afterKeyQuery_driver (s : State) (k : Byte) : (s.afterKeyQuery k).driver = s.driver := rfl
@[simp] theorem State.afterKeyQuery_phase (s : State) (k : Byte) : (s.afterKeyQuery k).phase = s.phase := rfl
@[simp] theorem State.afterKeyQuery_ports (s : State) (k : Byte) : (s.afterKeyQuery k).ports = s.ports ++ [.keyQuery k s.keyAnswer] := rfl
@[simp] theorem State.afterKeyQuery_keyInput (s : State) (k : Byte) : (s.afterKeyQuery k).keyInput = s.keyInput := rfl
@[simp] theorem State.afterKeyQuery_draws (s : State) (k : Byte) : (s.afterKeyQuery k).draws = s.draws + 1 := rfl

@[simp] theorem State.armKeyWait_mem (s : State) (x : Reg) : (s.armKeyWait x).mem = s.mem := rfl
@[simp] theorem State.armKeyWait_V (s : State) (x : Reg) : (s.armKeyWait x).V = s.V := rfl
@[simp] theorem State.armKeyWait_I (s : State) (x : Reg) : (s.armKeyWait x).I = s.I := rfl
@[simp] theorem State.armKeyWait_PC (s : State) (x : Reg) : (s.armKeyWait x).PC = s.PC := rfl
@[simp] theorem State.armKeyWait_stack (s : State) (x : Reg) : (s.armKeyWait x).stack = s.stack := rfl
@[simp] theorem State.armKeyWait_DT (s : State) (x : Reg) : (s.armKeyWait x).DT = s.DT := rfl
@[simp] theorem State.armKeyWait_ST (s : State) (x : Reg) : (s.armKeyWait x).ST = s.ST := rfl
@[simp] theorem State.armKeyWait_paused (s : State) (x : Reg) : (s.armKeyWait x).paused = true := rfl
@[simp] theorem State.armKeyWait_waitReg (s : State) (x : Reg) : (s.armKeyWait x).waitReg = some x := rfl
@[simp] theorem State.armKeyWait_faulted (s : State) (x : Reg) : (s.armKeyWait x).faulted = s.faulted := rfl
@[simp] theorem State.armKeyWait_fb (s : State) (x : Reg) : (s.armKeyWait x).fb = s.fb := rfl
@[simp] theorem State.armKeyWait_params (s : State) (x : Reg) : (s.armKeyWait x).params = s.params := rfl
@[simp] theorem State.armKeyWait_driver (s : State) (x : Reg) : (s.armKeyWait x).driver = s.driver := rfl
@[simp] theorem State.armKeyWait_phase (s : State) (x : Reg) : (s.armKeyWait x).phase = s.phase := rfl
@[simp] theorem State.armKeyWait_ports (s : State) (x : Reg) : (s.armKeyWait x).ports = s.ports ++ [.keyWaitArm] := rfl
@[simp] theorem State.armKeyWait_keyInput (s : State) (x : Reg) : (s.armKeyWait x).keyInput = s.keyInput := rfl
@[simp] theorem State.armKeyWait_draws (s : State) (x : Reg) : (s.armKeyWait x).draws = s.draws := rfl

@[simp] theorem State.clearDisplay_mem (s : State) : (s.clearDisplay).mem = s.mem := rfl
@[simp] theorem State.clearDisplay_V (s : State) : (s.clearDisplay).V = s.V := rfl
@[simp] theorem State.clearDisplay_I (s : State) : (s.clearDisplay).I = s.I := rfl
@[simp] theorem State.clearDisplay_PC (s : State) : (s.clearDisplay).PC = s.PC := rfl
@[simp] theorem State.clearDisplay_stack (s : State) : (s.clearDisplay).stack = s.stack := rfl
@[simp] theorem State.clearDisplay_DT (s : State) : (s.clearDisplay).DT = s.DT := rfl
@[simp] theorem State.clearDisplay_ST (s : State) : (s.clearDisplay).ST = s.ST := rfl
@[simp] theorem State.clearDisplay_paused (s : State) : (s.clearDisplay).paused = s.paused := rfl
@[simp] theorem State.clearDisplay_waitReg (s : State) : (s.clearDisplay).waitReg = s.waitReg := rfl
@[simp] theorem State.clearDisplay_faulted (s : State) : (s.clearDisplay).faulted = s.faulted := rfl
@[simp] theorem State.clearDisplay_fb (s : State) : (s.clearDisplay).fb = Framebuffer.dark := rfl
@[simp] theorem State.clearDisplay_params (s : State) : (s.clearDisplay).params = s.params := rfl
@[simp] theorem State.clearDisplay_driver (s : State) : (s.clearDisplay).driver = s.driver := rfl
@[simp] theorem State.clearDisplay_phase (s : State) : (s.clearDisplay).phase = s.phase := rfl
@[simp] theorem State.clearDisplay_ports (s : State) : (s.clearDisplay).ports = s.ports ++ [.dispClear] := rfl
@[simp] theorem State.clearDisplay_keyInput (s : State) : (s.clearDisplay).keyInput = s.keyInput := rfl
@[simp] theorem State.clearDisplay_draws (s : State) : (s.clearDisplay).draws = s.draws := rfl

@[simp] theorem State.togglePixel_mem (s : State) (x y : Coord) : (s.togglePixel x y).mem = s.mem := rfl
@[simp] theorem State.togglePixel_V (s : State) (x y : Coord) : (s.togglePixel x y).V = s.V := rfl
@[simp] theorem State.togglePixel_I (s : State) (x y : Coord) : (s.togglePixel x y).I = s.I := rfl
@[simp] theorem State.togglePixel_PC (s : State) (x y : Coord) : (s.togglePixel x y).PC = s.PC := rfl
@[simp] theorem State.togglePixel_stack (s : State) (x y : Coord) : (s.togglePixel x y).stack = s.stack := rfl
@[simp] theorem State.togglePixel_DT (s : State) (x y : Coord) : (s.togglePixel x y).DT = s.DT := rfl
@[simp] theorem State.togglePixel_ST (s : State) (x y : Coord) : (s.togglePixel x y).ST = s.ST := rfl
@[simp] theorem State.togglePixel_paused (s : State) (x y : Coord) : (s.togglePixel x y).paused = s.paused := rfl
@[simp] theorem State.togglePixel_waitReg (s : State) (x y : Coord) : (s.togglePixel x y).waitReg = s.waitReg := rfl
@[simp] theorem State.togglePixel_faulted (s : State) (x y : Coord) : (s.togglePixel x y).faulted = s.faulted := rfl
@[simp] theorem State.togglePixel_fb (s : State) (x y : Coord) : (s.togglePixel x y).fb = Framebuffer.toggle s.fb x.toNat y.toNat := rfl
@[simp] theorem State.togglePixel_params (s : State) (x y : Coord) : (s.togglePixel x y).params = s.params := rfl
@[simp] theorem State.togglePixel_driver (s : State) (x y : Coord) : (s.togglePixel x y).driver = s.driver := rfl
@[simp] theorem State.togglePixel_phase (s : State) (x y : Coord) : (s.togglePixel x y).phase = s.phase := rfl
@[simp] theorem State.togglePixel_ports (s : State) (x y : Coord) : (s.togglePixel x y).ports = s.ports ++ [.dispToggle x y (s.toggleErases x y)] := rfl
@[simp] theorem State.togglePixel_keyInput (s : State) (x y : Coord) : (s.togglePixel x y).keyInput = s.keyInput := rfl
@[simp] theorem State.togglePixel_draws (s : State) (x y : Coord) : (s.togglePixel x y).draws = s.draws := rfl

@[simp] theorem State.beginTick_mem (s : State) : (s.beginTick).mem = s.mem := rfl
@[simp] theorem State.beginTick_V (s : State) : (s.beginTick).V = s.V := rfl
@[simp] theorem State.beginTick_I (s : State) : (s.beginTick).I = s.I := rfl
@[simp] theorem State.beginTick_PC (s : State) : (s.beginTick).PC = s.PC := rfl
@[simp] theorem State.beginTick_stack (s : State) : (s.beginTick).stack = s.stack := rfl
@[simp] theorem State.beginTick_DT (s : State) : (s.beginTick).DT = s.DT := rfl
@[simp] theorem State.beginTick_ST (s : State) : (s.beginTick).ST = s.ST := rfl
@[simp] theorem State.beginTick_paused (s : State) : (s.beginTick).paused = s.paused := rfl
@[simp] theorem State.beginTick_waitReg (s : State) : (s.beginTick).waitReg = s.waitReg := rfl
@[simp] theorem State.beginTick_faulted (s : State) : (s.beginTick).faulted = s.faulted := rfl
@[simp] theorem State.beginTick_fb (s : State) : (s.beginTick).fb = s.fb := rfl
@[simp] theorem State.beginTick_params (s : State) : (s.beginTick).params = s.params := rfl
@[simp] theorem State.beginTick_driver (s : State) : (s.beginTick).driver = s.driver := rfl
@[simp] theorem State.beginTick_phase (s : State) : (s.beginTick).phase = s.phase := rfl
@[simp] theorem State.beginTick_ports (s : State) : (s.beginTick).ports = [] := rfl
@[simp] theorem State.beginTick_keyInput (s : State) : (s.beginTick).keyInput = s.keyInput := rfl
@[simp] theorem State.beginTick_draws (s : State) : (s.beginTick).draws = s.draws := rfl

end Sys2Proof.Machine
end

