-- ==== Sys2Proof/Laws/Registers.lean ====
section
/-! SUPPORT. The laws of register and memory access on the state, and of the stack: one lemma per operation and per way of reading. -/

namespace Sys2Proof.Machine

/-- Reading a register after a write (R101): the written value there, every other register as before. -/
@[simp] theorem State.readV_writeV (s : State) (x y : Reg) (b : Byte) :
    (s.writeV x b).readV y = if x = y then b else s.readV y := by
  simp [State.readV, Vector.getElem_set, BitVec.toNat_inj]

/-- A register reads the same in two states with the same registers. -/
theorem State.readV_congr {s t : State} (h : t.V = s.V) (x : Reg) : t.readV x = s.readV x := by
  simp [State.readV, h]

/-- A memory byte reads the same in two states with the same memory. -/
theorem State.readMem_congr {s t : State} (h : t.mem = s.mem) (a : Nat) : t.readMem a = s.readMem a := by
  simp [State.readMem, h]

@[simp] theorem State.readV_writeMem (s : State) (a : Nat) (b : Byte) (y : Reg) :
    (s.writeMem a b).readV y = s.readV y := rfl
@[simp] theorem State.readV_advancePC (s : State) (y : Reg) : s.advancePC.readV y = s.readV y := rfl
@[simp] theorem State.readV_jump (s : State) (w : Word) (y : Reg) : (s.jump w).readV y = s.readV y := rfl
@[simp] theorem State.readV_writeI (s : State) (w : Word) (y : Reg) : (s.writeI w).readV y = s.readV y := rfl
@[simp] theorem State.readV_push (s : State) (w : Word) (y : Reg) : (s.push w).readV y = s.readV y := rfl
@[simp] theorem State.readV_overflowStack (s : State) (y : Reg) : s.overflowStack.readV y = s.readV y := rfl
@[simp] theorem State.readV_emit (s : State) (p : PortOp) (y : Reg) : (s.emit p).readV y = s.readV y := rfl
@[simp] theorem State.readV_afterDrawByte (s : State) (y : Reg) : s.afterDrawByte.readV y = s.readV y := rfl
@[simp] theorem State.readV_afterKeyQuery (s : State) (k : Byte) (y : Reg) :
    (s.afterKeyQuery k).readV y = s.readV y := rfl
@[simp] theorem State.readV_armKeyWait (s : State) (x y : Reg) : (s.armKeyWait x).readV y = s.readV y := rfl
@[simp] theorem State.readV_clearDisplay (s : State) (y : Reg) : s.clearDisplay.readV y = s.readV y := rfl
@[simp] theorem State.readV_togglePixel (s : State) (cx cy : Coord) (y : Reg) :
    (s.togglePixel cx cy).readV y = s.readV y := rfl

/-- Reading memory after a write on the state (R203, R208). -/
@[simp] theorem State.readMem_writeMem (s : State) (a a' : Nat) (b : Byte) :
    (s.writeMem a b).readMem a' = if memIndex a = memIndex a' then b else s.readMem a' :=
  Memory.read_write s.mem a a' b

@[simp] theorem State.readMem_writeV (s : State) (x : Reg) (b : Byte) (a : Nat) :
    (s.writeV x b).readMem a = s.readMem a := rfl
@[simp] theorem State.readMem_advancePC (s : State) (a : Nat) : s.advancePC.readMem a = s.readMem a := rfl
@[simp] theorem State.readMem_jump (s : State) (w : Word) (a : Nat) : (s.jump w).readMem a = s.readMem a := rfl
@[simp] theorem State.readMem_writeI (s : State) (w : Word) (a : Nat) : (s.writeI w).readMem a = s.readMem a := rfl
@[simp] theorem State.readMem_push (s : State) (w : Word) (a : Nat) : (s.push w).readMem a = s.readMem a := rfl
@[simp] theorem State.readMem_overflowStack (s : State) (a : Nat) : s.overflowStack.readMem a = s.readMem a := rfl
@[simp] theorem State.readMem_emit (s : State) (p : PortOp) (a : Nat) : (s.emit p).readMem a = s.readMem a := rfl
@[simp] theorem State.readMem_afterDrawByte (s : State) (a : Nat) : s.afterDrawByte.readMem a = s.readMem a := rfl
@[simp] theorem State.readMem_afterKeyQuery (s : State) (k : Byte) (a : Nat) :
    (s.afterKeyQuery k).readMem a = s.readMem a := rfl
@[simp] theorem State.readMem_armKeyWait (s : State) (x : Reg) (a : Nat) :
    (s.armKeyWait x).readMem a = s.readMem a := rfl
@[simp] theorem State.readMem_clearDisplay (s : State) (a : Nat) : s.clearDisplay.readMem a = s.readMem a := rfl
@[simp] theorem State.readMem_togglePixel (s : State) (cx cy : Coord) (a : Nat) :
    (s.togglePixel cx cy).readMem a = s.readMem a := rfl

/-- What a skip's effect can be: nothing, or one more advance (R509). -/
theorem State.skipIf_cases (s : State) (c : Bool) :
    (c = true ∧ s.skipIf c = s.advancePC) ∨ (c = false ∧ s.skipIf c = s) := by
  cases c <;> simp [State.skipIf]

/-- A skip's effect reaches the PC alone (R509). -/
theorem State.skipIf_eq (s : State) (c : Bool) :
    s.skipIf c = { s with PC := if c then s.PC + 2#16 else s.PC } := by
  cases c <;> rfl

/-- What a return's effect can be: the last entry goes to PC, or the stack was empty and nothing happens (R501). -/
theorem State.popToPC_cases (s : State) :
    (∃ rest w, s.stack = rest ++ [w] ∧ s.popToPC = { s with PC := w, stack := rest }) ∨
    (s.stack = [] ∧ s.popToPC = s) := by
  rcases List.eq_nil_or_concat s.stack with h | ⟨rest, w, h⟩
  · exact .inr ⟨h, by simp [State.popToPC, h]⟩
  · refine .inl ⟨rest, w, by simpa using h, ?_⟩
    have h' : s.stack = rest ++ [w] := by simpa using h
    simp [State.popToPC, h']

/-- A return on a stack whose last entry is known. -/
theorem State.popToPC_append (s : State) (rest : List Word) (w : Word) (h : s.stack = rest ++ [w]) :
    s.popToPC = { s with PC := w, stack := rest } := by
  simp [State.popToPC, h]

/-- What a call's effect can be (R503). -/
theorem State.callSubroutine_cases (s : State) (w : Word) :
    (s.stackFull = true ∧ s.callSubroutine w = s.overflowStack) ∨
    (s.stackFull = false ∧ s.callSubroutine w = (s.push s.PC).jump w) := by
  unfold State.callSubroutine
  cases s.stackFull <;> simp

end Sys2Proof.Machine
end

