-- ==== Sys2Proof/Laws/Blocks.lean ====
section
/-! SUPPORT. The laws of the memory operations: the BCD stores (R906), the block store (R907) and the block load (R908). -/

namespace Sys2Proof.Machine

/-- Writing one byte after a sequence of bytes. -/
theorem Memory.writeBytes_append (bs : List Byte) (b : Byte) : ∀ (m : Memory) (a : Nat),
    m.writeBytes a (bs ++ [b]) = (m.writeBytes a bs).write (a + bs.length) b := by
  induction bs with
  | nil => intros; rfl
  | cons c rest ih =>
    intro m a
    simp only [List.cons_append, Memory.writeBytes, ih, List.length_cons]
    rw [show a + 1 + rest.length = a + (rest.length + 1) by omega]

/-- The registers V0..V(n-1), in ascending order. -/
def State.firstRegs (s : State) (n : Nat) : List Byte := (List.range n).map fun k => s.readV (BitVec.ofNat 4 k)

@[simp] theorem State.firstRegs_length (s : State) (n : Nat) : (s.firstRegs n).length = n := by
  simp [State.firstRegs]

/-- The block store writes the registers as one byte sequence from I, and nothing else (R907). -/
theorem State.storeBlock_eq (s : State) (n : Nat) :
    s.storeBlock n = { s with mem := s.mem.writeBytes s.I.toNat (s.firstRegs n) } := by
  induction n with
  | zero => rfl
  | succ n ih =>
    have : s.storeBlock (n + 1) =
        (s.storeBlock n).writeMem ((s.storeBlock n).blockAddr n) ((s.storeBlock n).readV (BitVec.ofNat 4 n)) := by
      simp [State.storeBlock, List.range_succ]
    rw [this, ih]
    have hf : s.firstRegs (n + 1) = s.firstRegs n ++ [s.readV (BitVec.ofNat 4 n)] := by
      simp [State.firstRegs, List.range_succ]
    rw [hf, Memory.writeBytes_append, State.firstRegs_length]
    rfl

/-- The BCD stores write three bytes from I, and nothing else (R906). -/
theorem State.storeBcd_eq (s : State) (v : Byte) :
    s.storeBcd v = { s with mem := s.mem.writeBytes s.I.toNat [bcdHundreds v, bcdTens v, bcdOnes v] } := rfl

/-- The block load changes registers alone, and reads memory as it stood (R908). -/
theorem State.loadBlock_spec (s : State) (n : Nat) (hn : n ≤ 16) :
    (∃ V, s.loadBlock n = { s with V := V }) ∧
    ∀ y : Reg, (s.loadBlock n).readV y = if y.toNat < n then s.readMem (s.I.toNat + y.toNat) else s.readV y := by
  induction n with
  | zero => exact ⟨⟨s.V, rfl⟩, fun y => by simp [State.loadBlock]⟩
  | succ n ih =>
    obtain ⟨⟨V, hV⟩, hr⟩ := ih (by omega)
    have hstep : s.loadBlock (n + 1) =
        (s.loadBlock n).writeV (BitVec.ofNat 4 n) ((s.loadBlock n).readMem ((s.loadBlock n).blockAddr n)) := by
      simp [State.loadBlock, List.range_succ]
    have hm : (s.loadBlock n).readMem ((s.loadBlock n).blockAddr n) = s.readMem (s.I.toNat + n) := by rw [hV]; rfl
    rw [hstep, hm]
    refine ⟨⟨(s.loadBlock n).V.set (BitVec.ofNat 4 n).toNat (s.readMem (s.I.toNat + n)) (BitVec.ofNat 4 n).isLt, ?_⟩, ?_⟩
    · rw [hV]; rfl
    · intro y
      rw [State.readV_writeV, hr y]
      have hy : BitVec.ofNat 4 n = y ↔ n = y.toNat := by
        rw [← BitVec.toNat_inj, BitVec.toNat_ofNat, Nat.mod_eq_of_lt (by omega)]
      by_cases h : n = y.toNat
      · rw [if_pos (hy.mpr h), if_pos (by omega), h]
      · rw [if_neg (fun e => h (hy.mp e))]
        by_cases h2 : y.toNat < n
        · rw [if_pos h2, if_pos (by omega)]
        · rw [if_neg h2, if_neg (by omega)]

/-- How many registers a block moves: at most all 16. -/
theorem State.blockCount_le (s : State) (x : Reg) : s.blockCount x ≤ 16 := by
  have := x.isLt
  unfold State.blockCount
  split <;> omega

end Sys2Proof.Machine
end

