-- ==== Sys2Proof/Laws/Display.lean ====
section
/-! SUPPORT. The laws of the display contract (R700 to R702) and of drawing: a pixel after a toggle, and what a draw can change at all
(R711). -/

namespace Sys2Proof.Machine

/-- A pixel after one pixel is set: the set value there, every other pixel as before. -/
theorem Framebuffer.pixel_setPixel (fb : Framebuffer) (c c' : Fin 64) (r r' : Fin 32) (b : Bool) :
    Framebuffer.pixel (Framebuffer.setPixel fb c r b) c' r' =
      if c = c' ∧ r = r' then b else Framebuffer.pixel fb c' r' := by
  unfold Framebuffer.pixel Framebuffer.setPixel
  by_cases hc : c = c'
  · subst hc
    by_cases hr : r = r'
    · subst hr; simp
    · have hr' : (r : Nat) ≠ r' := fun h => hr (Fin.ext h)
      simp [hr, hr']
  · have hc' : (c : Nat) ≠ c' := fun h => hc (Fin.ext h)
    simp [hc, hc']

/-- A pixel after a toggle: inverted where the coordinates wrap to it (R701). -/
theorem Framebuffer.pixel_toggle (fb : Framebuffer) (x y : Int) (c : Fin 64) (r : Fin 32) :
    Framebuffer.pixel (Framebuffer.toggle fb x y) c r =
      if column x = c ∧ row y = r then !(Framebuffer.pixel fb c r) else Framebuffer.pixel fb c r := by
  unfold Framebuffer.toggle
  rw [Framebuffer.pixel_setPixel]
  split
  · rename_i h
    rw [Framebuffer.erased, h.1, h.2]
  · rfl

/-- Every pixel is off after a clear (R702). -/
@[simp] theorem Framebuffer.pixel_dark (c : Fin 64) (r : Fin 32) :
    Framebuffer.pixel Framebuffer.dark c r = false := by
  simp [Framebuffer.pixel, Framebuffer.dark]

/-- The column of a coordinate that is a natural number. -/
theorem column_natCast (a : Nat) : column (a : Int) = ⟨a % 64, Nat.mod_lt _ (by decide)⟩ := by
  apply Fin.ext
  simp only [column]
  omega

/-- The row of a coordinate that is a natural number. -/
theorem row_natCast (a : Nat) : row (a : Int) = ⟨a % 32, Nat.mod_lt _ (by decide)⟩ := by
  apply Fin.ext
  simp only [row]
  omega

/-- The coordinate the core passes is the exact sum, where the offset is small enough for 9 bits (R711). -/
theorem pixelCoord_toNat (origin : Byte) (offset : Nat) (h : offset < 256) :
    (pixelCoord origin offset).toNat = origin.toNat + offset := by
  have := origin.isLt
  simp only [pixelCoord, BitVec.toNat_add, BitVec.toNat_setWidth, BitVec.toNat_ofNat]
  omega

/-- All that a draw can reach from a state: VF, the framebuffer and the record of port operations (R711). -/
def DrawReaches (s t : State) : Prop :=
  ∃ (flag : Byte) (fb : Framebuffer) (ports : List PortOp), t = { s.writeV VF flag with fb := fb, ports := ports }

theorem DrawReaches.refl (s : State) : DrawReaches s s := by
  refine ⟨s.readV VF, s.fb, s.ports, ?_⟩
  have : s.V.set VF.toNat (s.readV VF) VF.isLt = s.V := by
    simp [State.readV]
  simp only [State.writeV, this]

theorem DrawReaches.trans {s t u : State} (h1 : DrawReaches s t) (h2 : DrawReaches t u) : DrawReaches s u := by
  obtain ⟨flag, fb, ports, rfl⟩ := h1
  obtain ⟨flag', fb', ports', rfl⟩ := h2
  exact ⟨flag', fb', ports', by simp [State.writeV]⟩

theorem State.drawPixel_reaches (s : State) (x y : Coord) : DrawReaches s (s.drawPixel x y) := by
  unfold State.drawPixel
  split
  · exact ⟨1#8, _, _, rfl⟩
  · obtain ⟨flag, fb, ports, h⟩ := DrawReaches.refl s
    refine ⟨flag, Framebuffer.toggle s.fb x.toNat y.toNat, s.ports ++ [.dispToggle x y (s.toggleErases x y)], ?_⟩
    have hV : s.V = (s.writeV VF flag).V := by rw [h]; simp [State.writeV]
    simp [State.togglePixel, State.emit, State.writeV] at hV ⊢
    exact hV

/-- A fold of steps each of which draws, draws. -/
theorem drawReaches_foldl {α : Type} (f : State → α → State) (h : ∀ s a, DrawReaches s (f s a)) (l : List α) :
    ∀ s, DrawReaches s (l.foldl f s) := by
  induction l with
  | nil => exact DrawReaches.refl
  | cons a l ih => exact fun s => (h s a).trans (ih (f s a))

theorem State.drawRow_reaches (s : State) (px : Byte) (y : Coord) (bits : Byte) :
    DrawReaches s (s.drawRow px y bits) := by
  refine drawReaches_foldl _ (fun t c => ?_) _ s
  split
  · exact t.drawPixel_reaches _ y
  · exact DrawReaches.refl t

/-- Drawing the rows of a sprite changes VF, the framebuffer and the record of port operations alone (R711). -/
theorem State.drawRows_reaches (s : State) (px py : Byte) (base n : Nat) :
    DrawReaches s (s.drawRows px py base n) :=
  drawReaches_foldl _ (fun t r => t.drawRow_reaches px (pixelCoord py r) (t.readMem (base + r))) _ s

end Sys2Proof.Machine
end

