-- ==== Sys2Proof/Laws/Exec.lean ====
section
/-! SUPPORT. What holds of every instruction's meaning: it answers a next state, keeps memory canonical, and leaves the configuration,
the position in the tick and the keyboard's input alone. -/

namespace Sys2Proof.Machine

/-- No instruction stops the machine (R1000). -/
theorem exec_answers_next (i : Instr) (s : State) : ∃ t, exec i s = .next t := by
  cases i <;> exact ⟨_, rfl⟩

/-- What no instruction touches: the parameters, the driver, the phase and the keyboard's input. -/
structure SameSurroundings (s t : State) : Prop where
  params : t.params = s.params
  driver : t.driver = s.driver
  phase : t.phase = s.phase
  keyInput : t.keyInput = s.keyInput

theorem SameSurroundings.of_drawReaches {s t : State} (h : DrawReaches s t) : SameSurroundings s t := by
  obtain ⟨_, _, _, rfl⟩ := h
  exact ⟨rfl, rfl, rfl, rfl⟩

theorem State.skipIf_surroundings (s : State) (c : Bool) : SameSurroundings s (s.skipIf c) := by
  rw [State.skipIf_eq]
  exact ⟨rfl, rfl, rfl, rfl⟩

theorem SameSurroundings.trans {s t u : State} (h1 : SameSurroundings s t) (h2 : SameSurroundings t u) :
    SameSurroundings s u :=
  ⟨h2.1.trans h1.1, h2.2.trans h1.2, h2.3.trans h1.3, h2.4.trans h1.4⟩

/-- An instruction leaves the configuration, the position in the tick and the keyboard's input as they are. -/
theorem exec_surroundings (i : Instr) (s t : State) (h : exec i s = .next t) : SameSurroundings s t := by
  cases i <;> cases h
  case ret =>
    rcases s.advancePC.popToPC_cases with ⟨_, _, _, h⟩ | ⟨_, h⟩ <;> rw [h] <;> exact ⟨rfl, rfl, rfl, rfl⟩
  case call nnn =>
    rcases s.advancePC.callSubroutine_cases (addrOperand nnn) with ⟨_, h⟩ | ⟨_, h⟩ <;> rw [h] <;>
      exact ⟨rfl, rfl, rfl, rfl⟩
  case drw x y n =>
    exact .trans (t := s.advancePC.writeV VF 0#8) ⟨rfl, rfl, rfl, rfl⟩
      (.of_drawReaches (State.drawRows_reaches _ _ _ _ _))
  case skp x => exact .trans (t := s.advancePC.afterKeyQuery (s.readV x)) ⟨rfl, rfl, rfl, rfl⟩ (State.skipIf_surroundings _ _)
  case sknp x => exact .trans (t := s.advancePC.afterKeyQuery (s.readV x)) ⟨rfl, rfl, rfl, rfl⟩ (State.skipIf_surroundings _ _)
  case seImm => exact .trans (t := s.advancePC) ⟨rfl, rfl, rfl, rfl⟩ (State.skipIf_surroundings _ _)
  case sneImm => exact .trans (t := s.advancePC) ⟨rfl, rfl, rfl, rfl⟩ (State.skipIf_surroundings _ _)
  case seReg => exact .trans (t := s.advancePC) ⟨rfl, rfl, rfl, rfl⟩ (State.skipIf_surroundings _ _)
  case sneReg => exact .trans (t := s.advancePC) ⟨rfl, rfl, rfl, rfl⟩ (State.skipIf_surroundings _ _)
  case ldMemVx x => rw [State.storeBlock_eq]; exact ⟨rfl, rfl, rfl, rfl⟩
  case ldVxMem x =>
    obtain ⟨⟨V, h⟩, _⟩ := s.advancePC.loadBlock_spec (s.blockCount x) (s.blockCount_le x)
    rw [h]; exact ⟨rfl, rfl, rfl, rfl⟩
  all_goals exact ⟨rfl, rfl, rfl, rfl⟩

/-- An instruction keeps memory canonical. -/
theorem exec_mem_wf (i : Instr) (s t : State) (h : exec i s = .next t) (hs : s.mem.wf) : t.mem.wf := by
  cases i <;> cases h
  case ret =>
    rcases s.advancePC.popToPC_cases with ⟨_, _, _, h⟩ | ⟨_, h⟩ <;> rw [h] <;> exact hs
  case call nnn =>
    rcases s.advancePC.callSubroutine_cases (addrOperand nnn) with ⟨_, h⟩ | ⟨_, h⟩ <;> rw [h] <;> exact hs
  case drw x y n =>
    obtain ⟨_, _, _, h⟩ := (s.advancePC.writeV VF 0#8).drawRows_reaches (s.readV x) (s.readV y) s.I.toNat n.toNat
    rw [h]; exact hs
  case skp x => rw [State.skipIf_eq]; exact hs
  case sknp x => rw [State.skipIf_eq]; exact hs
  case seImm => rw [State.skipIf_eq]; exact hs
  case sneImm => rw [State.skipIf_eq]; exact hs
  case seReg => rw [State.skipIf_eq]; exact hs
  case sneReg => rw [State.skipIf_eq]; exact hs
  case ldB x => rw [State.storeBcd_eq]; exact Memory.writeBytes_wf _ _ _ hs
  case ldMemVx x => rw [State.storeBlock_eq]; exact Memory.writeBytes_wf _ _ _ hs
  case ldVxMem x =>
    obtain ⟨⟨V, h⟩, _⟩ := s.advancePC.loadBlock_spec (s.blockCount x) (s.blockCount_le x)
    rw [h]; exact hs
  all_goals exact hs

end Sys2Proof.Machine
end

