-- ==== Sys2Proof/Laws/Cycle.lean ====
section
/-! SUPPORT. The laws of the execution cycle and the tick: what one `step()` can do, what one step of the machine can do, and what the end
of a tick and the gap after it do (R400 to R413, R805). -/

namespace Sys2Proof.Machine

/-- What the engine's `step()` can do (R407): nothing while halted, else the decoded instruction, or the default advance alone on an
unknown opcode. -/
theorem State.stepInstruction_cases (s : State) :
    (s.halted = true ∧ s.stepInstruction = .next s) ∨
    (∃ i, s.halted = false ∧ decode s.fetch = .instr i ∧ s.stepInstruction = exec i s) ∨
    (∃ why, s.halted = false ∧ decode s.fetch = .unknown why ∧ s.stepInstruction = .next s.advancePC) := by
  unfold State.stepInstruction
  cases hh : s.halted with
  | true => exact .inl ⟨rfl, rfl⟩
  | false =>
    cases hd : decode s.fetch with
    | instr i => exact .inr (.inl ⟨i, rfl, rfl, rfl⟩)
    | unknown why => exact .inr (.inr ⟨why, rfl, rfl, rfl⟩)

/-- What one step of the machine can do: a `step()` invocation of the burst, or the end of the tick and the gap after it. -/
theorem step_cases (s : State) :
    (∃ n, s.stepsLeft = n + 1 ∧ step s = (s.enterStep n).stepInstruction) ∨
    (s.stepsLeft = 0 ∧ step s = .next s.openTick.endTick.deliverKeys) := by
  unfold step machineStep
  cases h : s.stepsLeft with
  | zero => exact .inr ⟨rfl, rfl⟩
  | succ n => exact .inl ⟨n, rfl, rfl⟩

/-- The engine's `step()` always answers a next state (R1000). -/
theorem State.stepInstruction_answers_next (s : State) : ∃ t, s.stepInstruction = .next t := by
  rcases s.stepInstruction_cases with ⟨_, h⟩ | ⟨i, _, _, h⟩ | ⟨_, _, _, h⟩ <;> rw [h]
  · exact ⟨_, rfl⟩
  · exact exec_answers_next i s
  · exact ⟨_, rfl⟩

/-- Opening a tick touches the record of port operations alone. -/
theorem State.openTick_eq (s : State) : ∃ ports, s.openTick = { s with ports := ports } := by
  by_cases h : s.phase = .between
  · exact ⟨[], by simp [State.openTick, h, State.beginTick]⟩
  · refine ⟨s.ports, ?_⟩
    unfold State.openTick
    split
    · contradiction
    · rfl

/-- Entering a `step()` invocation touches the phase and the record of port operations alone. -/
theorem State.enterStep_eq (s : State) (n : Nat) :
    ∃ ports, s.enterStep n = { s with ports := ports, phase := .burst n } := by
  obtain ⟨ports, h⟩ := s.openTick_eq
  exact ⟨ports, by rw [State.enterStep, h]⟩

/-- What the timer update can do (R1011). -/
theorem State.updateTimers_eq (s : State) :
    s.updateTimers = { s with
      DT := if s.halted then s.DT else decrement s.DT
      ST := if s.halted then s.ST else decrement s.ST } := by
  unfold State.updateTimers
  cases s.halted <;> rfl

/-- One decrement, as a number: floor 0 (R1011). -/
theorem decrement_toNat (t : Byte) : (decrement t).toNat = t.toNat - 1 := by
  unfold decrement
  split
  · rename_i h; rw [h]; rfl
  · rename_i h
    have h0 : t.toNat ≠ 0 := fun e => h (BitVec.eq_of_toNat_eq e)
    have := t.isLt
    rw [BitVec.toNat_sub]
    simp only [BitVec.toNat_ofNat]
    omega

/-- The end of a tick touches the timers, the record of port operations and the phase alone (R410). -/
theorem State.endTick_eq (s : State) :
    s.endTick = { s with
      DT := if s.halted then s.DT else decrement s.DT
      ST := if s.halted then s.ST else decrement s.ST
      ports := s.ports ++ [if (if s.halted then s.ST else decrement s.ST) = 0#8 then .audioStop else .audioPlay, .dispRender]
      phase := .between } := by
  unfold State.endTick State.reportAudio
  rw [State.updateTimers_eq]
  simp [State.emit]

/-- What a key-down event can do (R805, R806). -/
theorem State.keyDown_cases (s : State) (k : Key) :
    (∃ x, s.waitReg = some x ∧
      s.keyDown k = { s.writeV x (k.setWidth 8) with paused := false, waitReg := none }) ∨
    (s.waitReg = none ∧ s.keyDown k = s) := by
  unfold State.keyDown
  cases h : s.waitReg with
  | none => exact .inr ⟨rfl, rfl⟩
  | some x => exact .inl ⟨x, rfl, rfl⟩

/-- Events without a pending wait do nothing, however many they are (R806). -/
theorem State.keyDowns_none (s : State) (ks : List Key) (h : s.waitReg = none) : s.keyDowns ks = s := by
  induction ks with
  | nil => rfl
  | cons k ks ih =>
    rw [State.keyDowns, List.foldl_cons, show s.keyDown k = s by simp [State.keyDown, h]]
    exact ih

/-- Of several events only the first completes a wait (R806). -/
theorem State.keyDowns_cons (s : State) (k : Key) (ks : List Key) : s.keyDowns (k :: ks) = s.keyDown k := by
  have h : (s.keyDown k).waitReg = none := by
    rcases s.keyDown_cases k with ⟨x, _, h⟩ | ⟨h1, h⟩ <;> rw [h]
    exact h1
  exact (s.keyDown k).keyDowns_none ks h

/-- What the gap after a tick can do: a pending wait is completed by the first event of the gap, or only the keyboard's input moves on. -/
theorem State.deliverKeys_cases (s : State) :
    (∃ x k ks rest, s.waitReg = some x ∧ s.keyInput = (k :: ks) :: rest ∧
      s.deliverKeys =
        { s.writeV x (k.setWidth 8) with paused := false, waitReg := none, keyInput := rest }) ∨
    s.deliverKeys = { s with keyInput := s.keyInput.tail } := by
  unfold State.deliverKeys
  cases hk : s.keyInput with
  | nil => exact .inr (by cases s; simp_all)
  | cons ks rest =>
    cases ks with
    | nil => exact .inr rfl
    | cons k ks =>
      simp only [State.keyDowns_cons]
      rcases ({ s with keyInput := rest } : State).keyDown_cases k with ⟨x, hx, h⟩ | ⟨_, h⟩
      · exact .inl ⟨x, k, ks, rest, hx, rfl, by rw [h]; rfl⟩
      · exact .inr (by rw [h]; rfl)

end Sys2Proof.Machine
end

