-- ==== Sys2Proof/Laws/Decode.lean ====
section
/-! SUPPORT. The fields of a word put together from its fields, as numbers first: each field of R302 is a quotient and remainder of the
word, each format of R301 a sum. -/

namespace Sys2Proof

theorem wordXKK_toNat (a x : BitVec 4) (kk : Byte) :
    (wordXKK a x kk).toNat = a.toNat * 4096 + x.toNat * 256 + kk.toNat := by
  have := x.isLt; have := kk.isLt
  simp only [wordXKK, BitVec.toNat_append]
  rw [← Nat.shiftLeft_add_eq_or_of_lt (by omega), ← Nat.shiftLeft_add_eq_or_of_lt (by omega)]
  simp only [Nat.shiftLeft_eq]
  omega

theorem wordXYN_toNat (a x y n : BitVec 4) :
    (wordXYN a x y n).toNat = a.toNat * 4096 + x.toNat * 256 + y.toNat * 16 + n.toNat := by
  have := x.isLt; have := y.isLt; have := n.isLt
  simp only [wordXYN, BitVec.toNat_append]
  rw [← Nat.shiftLeft_add_eq_or_of_lt (by omega), ← Nat.shiftLeft_add_eq_or_of_lt (by omega),
    ← Nat.shiftLeft_add_eq_or_of_lt (by omega)]
  simp only [Nat.shiftLeft_eq]
  omega

theorem wordNNN_toNat (a : BitVec 4) (nnn : Addr) : (wordNNN a nnn).toNat = a.toNat * 4096 + nnn.toNat := by
  have := nnn.isLt
  simp only [wordNNN, BitVec.toNat_append]
  rw [← Nat.shiftLeft_add_eq_or_of_lt (by omega)]
  simp only [Nat.shiftLeft_eq]

theorem wordOfBytes_toNat (high low : Byte) : (wordOfBytes high low).toNat = high.toNat * 256 + low.toNat := by
  have := low.isLt
  simp only [wordOfBytes, BitVec.toNat_append]
  rw [← Nat.shiftLeft_add_eq_or_of_lt (by omega)]
  simp only [Nat.shiftLeft_eq]

theorem Word.top_toNat (op : Word) : op.top.toNat = op.toNat / 4096 := by
  have := op.isLt
  simp only [Word.top, BitVec.extractLsb'_toNat, Nat.shiftRight_eq_div_pow]
  omega

theorem Word.x_toNat (op : Word) : op.x.toNat = op.toNat / 256 % 16 := by
  simp only [Word.x, BitVec.extractLsb'_toNat, Nat.shiftRight_eq_div_pow]

theorem Word.y_toNat (op : Word) : op.y.toNat = op.toNat / 16 % 16 := by
  simp only [Word.y, BitVec.extractLsb'_toNat, Nat.shiftRight_eq_div_pow]

theorem Word.n_toNat (op : Word) : op.n.toNat = op.toNat % 16 := by
  simp only [Word.n, BitVec.extractLsb'_toNat, Nat.shiftRight_zero]

theorem Word.kk_toNat (op : Word) : op.kk.toNat = op.toNat % 256 := by
  simp only [Word.kk, BitVec.extractLsb'_toNat, Nat.shiftRight_zero]

theorem Word.nnn_toNat (op : Word) : op.nnn.toNat = op.toNat % 4096 := by
  simp only [Word.nnn, BitVec.extractLsb'_toNat, Nat.shiftRight_zero]

theorem Addr.lowByte_toNat (nnn : Addr) : (Addr.lowByte nnn).toNat = nnn.toNat % 256 := by
  simp only [Addr.lowByte, BitVec.toNat_setWidth]

section
variable (a x y n : BitVec 4) (kk : Byte) (nnn : Addr)

@[simp] theorem wordXKK_top : (wordXKK a x kk).top = a := by
  have := x.isLt; have := kk.isLt; have := a.isLt
  apply BitVec.eq_of_toNat_eq
  rw [Word.top_toNat, wordXKK_toNat]
  omega

@[simp] theorem wordXKK_x : (wordXKK a x kk).x = x := by
  have := x.isLt; have := kk.isLt
  apply BitVec.eq_of_toNat_eq
  rw [Word.x_toNat, wordXKK_toNat]
  omega

@[simp] theorem wordXKK_kk : (wordXKK a x kk).kk = kk := by
  have := kk.isLt
  apply BitVec.eq_of_toNat_eq
  rw [Word.kk_toNat, wordXKK_toNat]
  omega

@[simp] theorem wordXYN_top : (wordXYN a x y n).top = a := by
  have := x.isLt; have := y.isLt; have := n.isLt; have := a.isLt
  apply BitVec.eq_of_toNat_eq
  rw [Word.top_toNat, wordXYN_toNat]
  omega

@[simp] theorem wordXYN_x : (wordXYN a x y n).x = x := by
  have := x.isLt; have := y.isLt; have := n.isLt
  apply BitVec.eq_of_toNat_eq
  rw [Word.x_toNat, wordXYN_toNat]
  omega

@[simp] theorem wordXYN_y : (wordXYN a x y n).y = y := by
  have := y.isLt; have := n.isLt
  apply BitVec.eq_of_toNat_eq
  rw [Word.y_toNat, wordXYN_toNat]
  omega

@[simp] theorem wordXYN_n : (wordXYN a x y n).n = n := by
  have := n.isLt
  apply BitVec.eq_of_toNat_eq
  rw [Word.n_toNat, wordXYN_toNat]
  omega

@[simp] theorem wordNNN_top : (wordNNN a nnn).top = a := by
  have := nnn.isLt; have := a.isLt
  apply BitVec.eq_of_toNat_eq
  rw [Word.top_toNat, wordNNN_toNat]
  omega

@[simp] theorem wordNNN_nnn : (wordNNN a nnn).nnn = nnn := by
  have := nnn.isLt
  apply BitVec.eq_of_toNat_eq
  rw [Word.nnn_toNat, wordNNN_toNat]
  omega

@[simp] theorem wordNNN_kk : (wordNNN a nnn).kk = Addr.lowByte nnn := by
  apply BitVec.eq_of_toNat_eq
  rw [Word.kk_toNat, wordNNN_toNat, Addr.lowByte_toNat]
  omega

end

/-- The two bytes of a word make the word again (R204). -/
@[simp] theorem wordOfBytes_bytes (op : Word) : wordOfBytes op.highByte op.lowByte = op := by
  have := op.isLt
  apply BitVec.eq_of_toNat_eq
  rw [wordOfBytes_toNat]
  simp only [Word.highByte, Word.lowByte, BitVec.extractLsb'_toNat, Nat.shiftRight_eq_div_pow]
  omega

end Sys2Proof
end

