-- ==== Sys2Proof/Laws/HostInterface.lean ====
section
/-! SUPPORT. The laws of a burst, of the rest of a tick and of the driver's tick: each answers a next state, and ticks are serial (R410, R422,
R423). -/

namespace Sys2Proof.Machine

/-- A `step()` invocation leaves the configuration, the position in the tick and the keyboard's input as they are. -/
theorem State.stepInstruction_surroundings (s t : State) (h : s.stepInstruction = .next t) : SameSurroundings s t := by
  rcases s.stepInstruction_cases with ⟨_, h'⟩ | ⟨i, _, _, h'⟩ | ⟨_, _, _, h'⟩ <;> rw [h'] at h
  · cases h; exact ⟨rfl, rfl, rfl, rfl⟩
  · exact exec_surroundings i s t h
  · cases h; exact ⟨rfl, rfl, rfl, rfl⟩

/-- A burst answers a next state with the same surroundings (R411). -/
theorem State.burst_answers_next (n : Nat) : ∀ s, ∃ t, State.burst n s = .next t ∧ SameSurroundings s t := by
  induction n with
  | zero => exact fun s => ⟨s, rfl, rfl, rfl, rfl, rfl⟩
  | succ n ih =>
    intro s
    obtain ⟨u, hu⟩ := s.stepInstruction_answers_next
    obtain ⟨t, ht, h⟩ := ih u
    exact ⟨t, by rw [State.burst, hu]; exact ht, (s.stepInstruction_surroundings u hu).trans h⟩

/-- The rest of a tick answers a state between two ticks, the configuration unchanged (R422). -/
theorem State.finishTick_answers_next (s : State) :
    ∃ t, s.finishTick = .next t ∧ t.phase = .between ∧ t.params = s.params ∧ t.driver = s.driver := by
  unfold State.finishTick
  split
  · exact ⟨s, rfl, by assumption, rfl, rfl⟩
  · rename_i n _
    obtain ⟨u, hu, h⟩ := State.burst_answers_next n s
    refine ⟨u.endTick.deliverKeys, by rw [hu], ?_⟩
    rcases u.endTick.deliverKeys_cases with ⟨x, k, ks, rest, _, _, e⟩ | e <;> rw [e, State.endTick_eq] <;>
      exact ⟨rfl, h.params, h.driver⟩

/-- What the driver's tick does while it runs: one `advance`, from a state between two ticks (R423). -/
theorem State.tick_running (s : State) (hr : s.driver.running = true) :
    ∃ t, s.finishTick = .next t ∧ t.phase = .between ∧ s.tick = State.advance s.driver.cyclesPerTick t := by
  obtain ⟨t, h, hp, _, hd⟩ := s.finishTick_answers_next
  exact ⟨t, h, hp, by rw [State.tick, if_pos hr, h, ← hd]⟩

end Sys2Proof.Machine
end

