-- ==== Sys2Proof/Laws/PerInstr.lean ====
section
/-! SUPPORT. The family RowSelects: the encoder's word of an instruction is selected by that instruction's own row of R317,
`(op & mask) == match`. -/

namespace Sys2Proof

theorem wordXKK_mask_top (a x : BitVec 4) (kk : Byte) : wordXKK a x kk &&& 0xF000#16 = wordXKK a 0#4 0#8 := by
  refine BitVec.eq_of_getLsbD_eq fun i hi => ?_
  have : i < 16 := hi
  interval_cases i <;> simp only [wordXKK, BitVec.getLsbD_and, BitVec.getLsbD_append] <;> simp

theorem wordXKK_mask_kk (a x : BitVec 4) (kk : Byte) : wordXKK a x kk &&& 0xF0FF#16 = wordXKK a 0#4 kk := by
  refine BitVec.eq_of_getLsbD_eq fun i hi => ?_
  have : i < 16 := hi
  interval_cases i <;> simp only [wordXKK, BitVec.getLsbD_and, BitVec.getLsbD_append] <;> simp

theorem wordXYN_mask_top (a x y n : BitVec 4) : wordXYN a x y n &&& 0xF000#16 = wordXYN a 0#4 0#4 0#4 := by
  refine BitVec.eq_of_getLsbD_eq fun i hi => ?_
  have : i < 16 := hi
  interval_cases i <;> simp only [wordXYN, BitVec.getLsbD_and, BitVec.getLsbD_append] <;> simp

theorem wordXYN_mask_n (a x y n : BitVec 4) : wordXYN a x y n &&& 0xF00F#16 = wordXYN a 0#4 0#4 n := by
  refine BitVec.eq_of_getLsbD_eq fun i hi => ?_
  have : i < 16 := hi
  interval_cases i <;> simp only [wordXYN, BitVec.getLsbD_and, BitVec.getLsbD_append] <;> simp

theorem wordNNN_mask_top (a : BitVec 4) (nnn : Addr) : wordNNN a nnn &&& 0xF000#16 = wordNNN a 0#12 := by
  refine BitVec.eq_of_getLsbD_eq fun i hi => ?_
  have : i < 16 := hi
  interval_cases i <;> simp only [wordNNN, BitVec.getLsbD_and, BitVec.getLsbD_append] <;> simp

namespace Laws.RowSelects

/-- The row of R317 for the instruction selects the word the encoder gives it. -/
def Statement (i : Instr) : Prop := encode i &&& rowMask i = rowMatch i

theorem sys (nnn : Addr) : Statement (.sys nnn) := (wordNNN_mask_top _ _).trans rfl
theorem cls : Statement .cls := rfl
theorem ret : Statement .ret := rfl
theorem jp (nnn : Addr) : Statement (.jp nnn) := (wordNNN_mask_top _ _).trans rfl
theorem call (nnn : Addr) : Statement (.call nnn) := (wordNNN_mask_top _ _).trans rfl
theorem seImm (x : Reg) (kk : Byte) : Statement (.seImm x kk) := (wordXKK_mask_top _ _ _).trans rfl
theorem sneImm (x : Reg) (kk : Byte) : Statement (.sneImm x kk) := (wordXKK_mask_top _ _ _).trans rfl
theorem seReg (x y : Reg) : Statement (.seReg x y) := (wordXYN_mask_top _ _ _ _).trans rfl
theorem ldImm (x : Reg) (kk : Byte) : Statement (.ldImm x kk) := (wordXKK_mask_top _ _ _).trans rfl
theorem addImm (x : Reg) (kk : Byte) : Statement (.addImm x kk) := (wordXKK_mask_top _ _ _).trans rfl
theorem ldReg (x y : Reg) : Statement (.ldReg x y) := (wordXYN_mask_n _ _ _ _).trans rfl
theorem orReg (x y : Reg) : Statement (.orReg x y) := (wordXYN_mask_n _ _ _ _).trans rfl
theorem andReg (x y : Reg) : Statement (.andReg x y) := (wordXYN_mask_n _ _ _ _).trans rfl
theorem xorReg (x y : Reg) : Statement (.xorReg x y) := (wordXYN_mask_n _ _ _ _).trans rfl
theorem addReg (x y : Reg) : Statement (.addReg x y) := (wordXYN_mask_n _ _ _ _).trans rfl
theorem subReg (x y : Reg) : Statement (.subReg x y) := (wordXYN_mask_n _ _ _ _).trans rfl
theorem shr (x : Reg) : Statement (.shr x) := (wordXYN_mask_n _ _ _ _).trans rfl
theorem subnReg (x y : Reg) : Statement (.subnReg x y) := (wordXYN_mask_n _ _ _ _).trans rfl
theorem shl (x : Reg) : Statement (.shl x) := (wordXYN_mask_n _ _ _ _).trans rfl
theorem sneReg (x y : Reg) : Statement (.sneReg x y) := (wordXYN_mask_top _ _ _ _).trans rfl
theorem ldI (nnn : Addr) : Statement (.ldI nnn) := (wordNNN_mask_top _ _).trans rfl
theorem jpV0 (nnn : Addr) : Statement (.jpV0 nnn) := (wordNNN_mask_top _ _).trans rfl
theorem rnd (x : Reg) (kk : Byte) : Statement (.rnd x kk) := (wordXKK_mask_top _ _ _).trans rfl
theorem drw (x y : Reg) (n : Nibble) : Statement (.drw x y n) := (wordXYN_mask_top _ _ _ _).trans rfl
theorem skp (x : Reg) : Statement (.skp x) := (wordXKK_mask_kk _ _ _).trans rfl
theorem sknp (x : Reg) : Statement (.sknp x) := (wordXKK_mask_kk _ _ _).trans rfl
theorem ldVxDT (x : Reg) : Statement (.ldVxDT x) := (wordXKK_mask_kk _ _ _).trans rfl
theorem ldVxK (x : Reg) : Statement (.ldVxK x) := (wordXKK_mask_kk _ _ _).trans rfl
theorem ldDTVx (x : Reg) : Statement (.ldDTVx x) := (wordXKK_mask_kk _ _ _).trans rfl
theorem ldSTVx (x : Reg) : Statement (.ldSTVx x) := (wordXKK_mask_kk _ _ _).trans rfl
theorem addI (x : Reg) : Statement (.addI x) := (wordXKK_mask_kk _ _ _).trans rfl
theorem ldF (x : Reg) : Statement (.ldF x) := (wordXKK_mask_kk _ _ _).trans rfl
theorem ldB (x : Reg) : Statement (.ldB x) := (wordXKK_mask_kk _ _ _).trans rfl
theorem ldMemVx (x : Reg) : Statement (.ldMemVx x) := (wordXKK_mask_kk _ _ _).trans rfl
theorem ldVxMem (x : Reg) : Statement (.ldVxMem x) := (wordXKK_mask_kk _ _ _).trans rfl

end Laws.RowSelects

end Sys2Proof
end

