-- ==== Sys2Proof/Tests/Slice0.lean ====
section
/-! SUPPORT. Tests whose expected values stand in spec/95_test_vectors.md (the vector is named at each), words written out bit by bit from
R317, and a witness for the hypotheses of every obligation that has some. -/

namespace Sys2Proof.Tests

open Sys2Proof.Machine Sys2Proof.Claims

/-! ## Well-formedness -/

/-- `SYS` with the low byte of CLS is no word's instruction (R306). -/
theorem test_wellFormed_refuses_sys_with_cls_byte : (Instr.sys 0x1E0#12).wellFormed = false := by decide

/-- `SYS` with the low byte of RET is no word's instruction (R306). -/
theorem test_wellFormed_refuses_sys_with_ret_byte : (Instr.sys 0x0EE#12).wellFormed = false := by decide

/-- V-DEC: 0123 is `SYS 123`. -/
theorem test_wellFormed_accepts_sys : (Instr.sys 0x123#12).wellFormed = true := by decide

/-! ## Decoding: one word per row of R317, written out bit by bit -/

/-- Rows 1 to 8. -/
theorem test_decode_rows_1_to_8 :
    decode 0b0000000100100011#16 = .instr (.sys 0x123#12) ∧
    decode 0b0000000011100000#16 = .instr .cls ∧
    decode 0b0000000011101110#16 = .instr .ret ∧
    decode 0b0001000011101110#16 = .instr (.jp 0x0EE#12) ∧
    decode 0b0010001100000000#16 = .instr (.call 0x300#12) ∧
    decode 0b0011001101000010#16 = .instr (.seImm 3#4 0x42#8) ∧
    decode 0b0100001101000010#16 = .instr (.sneImm 3#4 0x42#8) ∧
    decode 0b0101000100100000#16 = .instr (.seReg 1#4 2#4) := by decide

/-- Rows 9 to 14. -/
theorem test_decode_rows_9_to_14 :
    decode 0b0110101001111111#16 = .instr (.ldImm 10#4 0x7F#8) ∧
    decode 0b0111000111110000#16 = .instr (.addImm 1#4 0xF0#8) ∧
    decode 0b1000000100100000#16 = .instr (.ldReg 1#4 2#4) ∧
    decode 0b1000000100100001#16 = .instr (.orReg 1#4 2#4) ∧
    decode 0b1000000100100010#16 = .instr (.andReg 1#4 2#4) ∧
    decode 0b1000000100100011#16 = .instr (.xorReg 1#4 2#4) := by decide

/-- Rows 15 to 20. -/
theorem test_decode_rows_15_to_20 :
    decode 0b1000000100100100#16 = .instr (.addReg 1#4 2#4) ∧
    decode 0b1000000100100101#16 = .instr (.subReg 1#4 2#4) ∧
    decode 0b1000000100000110#16 = .instr (.shr 1#4) ∧
    decode 0b1000000100100111#16 = .instr (.subnReg 1#4 2#4) ∧
    decode 0b1000000100001110#16 = .instr (.shl 1#4) ∧
    decode 0b1001000100100000#16 = .instr (.sneReg 1#4 2#4) := by decide

/-- Rows 21 to 26. -/
theorem test_decode_rows_21_to_26 :
    decode 0b1010001011110000#16 = .instr (.ldI 0x2F0#12) ∧
    decode 0b1011001100000000#16 = .instr (.jpV0 0x300#12) ∧
    decode 0b1100001100001111#16 = .instr (.rnd 3#4 0x0F#8) ∧
    decode 0b1101111100000001#16 = .instr (.drw 15#4 0#4 1#4) ∧
    decode 0b1110000110011110#16 = .instr (.skp 1#4) ∧
    decode 0b1110000110100001#16 = .instr (.sknp 1#4) := by decide

/-- Rows 27 to 35. -/
theorem test_decode_rows_27_to_35 :
    decode 0b1111001000000111#16 = .instr (.ldVxDT 2#4) ∧
    decode 0b1111001100001010#16 = .instr (.ldVxK 3#4) ∧
    decode 0b1111001000010101#16 = .instr (.ldDTVx 2#4) ∧
    decode 0b1111001000011000#16 = .instr (.ldSTVx 2#4) ∧
    decode 0b1111000100011110#16 = .instr (.addI 1#4) ∧
    decode 0b1111000000101001#16 = .instr (.ldF 0#4) ∧
    decode 0b1111010000110011#16 = .instr (.ldB 4#4) ∧
    decode 0b1111001001010101#16 = .instr (.ldMemVx 2#4) ∧
    decode 0b1111001001100101#16 = .instr (.ldVxMem 2#4) := by decide

/-- V-DEC: the ignored fields (D7, D8). -/
theorem test_decode_ignored_fields :
    decode 0x01E0#16 = .instr .cls ∧ decode 0x0EEE#16 = .instr .ret ∧ decode 0x5121#16 = .instr (.seReg 1#4 2#4) ∧
    decode 0x912F#16 = .instr (.sneReg 1#4 2#4) ∧ decode 0x8126#16 = .instr (.shr 1#4) := by decide

/-- V-DEC: the unknown encodings. -/
theorem test_decode_unknown :
    decode 0x8008#16 = .unknown (.group8 8#4) ∧ decode 0x800F#16 = .unknown (.group8 15#4) ∧
    decode 0xE09F#16 = .unknown (.groupE 0x9F#8) ∧ decode 0xF0FF#16 = .unknown (.groupF 0xFF#8) ∧
    decode 0xFFFF#16 = .unknown (.groupF 0xFF#8) := by decide

/-- R204: the byte at the lower address is the high one, and a lone byte is no instruction. -/
theorem test_decodeBytes_big_endian :
    decodeBytes [0x61#8, 0x2A#8, 0x99#8] = some (.instr (.ldImm 1#4 0x2A#8), [0x99#8]) ∧ decodeBytes [0x61#8] = none := by
  decide

/-! ## One step each: the state with an instruction word placed at PC -/

/-- The reset state with a word at 0x200. -/
def placed (op : Word) : State := State.reset.withFetchWord 16 op.toNat

/-- The reset state with PC at `a` and a word there. -/
def placedAt (a : Word) (op : Word) : State := ({ State.reset with PC := a } : State).withFetchWord 16 op.toNat

/-- Several registers set, the first of them first. -/
def regs (l : List (Reg × Byte)) (s : State) : State := l.foldl (fun t p => t.writeV p.1 p.2) s

/-- Bytes of memory set. -/
def bytes (a : Nat) (l : List Byte) (s : State) : State := { s with mem := s.mem.writeBytes a l }

/-- The step answers a next state of which `p` holds. -/
def stepGives (s : State) (p : State → Bool) : Bool :=
  match step s with
  | .next t => p t
  | .fault _ => false
  | .refused _ => false

/-- The bytes of memory from `a` on. -/
def dump (s : State) (a n : Nat) : List Byte := (List.range n).map fun k => s.readMem (a + k)

/-- `FB_INIT` all on. -/
def lit : Framebuffer := Vector.replicate 64 (Vector.replicate 32 true)

/-- V-CF: `0123` at 0300 gives PC = 0302. -/
theorem test_sys_advances : stepGives (placedAt 0x300#16 0x0123#16) (fun t => t.PC == 0x302#16) = true := by decide

/-- V-DSP: `00E0` on a lit display. -/
theorem test_cls_clears :
    stepGives { placed 0x00E0#16 with fb := lit } (fun t => Framebuffer.pixel lit 63 31 &&
      !(Framebuffer.pixel t.fb 0 0) && !(Framebuffer.pixel t.fb 63 31) && t.ports == [.dispClear]) = true := by decide

/-- V-CF: `00EE` with stack [0202, 0400] at 0500. -/
theorem test_ret_pops_the_last :
    stepGives { placedAt 0x500#16 0x00EE#16 with stack := [0x202#16, 0x400#16] }
      (fun t => t.PC == 0x400#16 && t.stack == [0x202#16]) = true := by decide

/-- V-CF: `00EE` on the empty stack at 0300. -/
theorem test_ret_underflow_falls_through :
    stepGives (placedAt 0x300#16 0x00EE#16) (fun t => t.PC == 0x302#16 && t.stack == []) = true := by decide

/-- V-CF: `1400` at 0400 is a true self-jump. -/
theorem test_jp_self : stepGives (placedAt 0x400#16 0x1400#16) (fun t => t.PC == 0x400#16) = true := by decide

/-- V-CF: `2300` at FFFE pushes 0000. -/
theorem test_call_pushes_the_wrapped_pc :
    stepGives (placedAt 0xFFFE#16 0x2300#16) (fun t => t.PC == 0x300#16 && t.stack == [0x0000#16]) = true := by decide

/-- V-CF: `2300` from a full stack of `STACK_DEPTH` 16. -/
theorem test_call_full_stack_faults :
    stepGives { placed 0x2300#16 with
        stack := List.replicate 16 0x0202#16, params := { stackDepth := some 16, regBlockInclusive := false } }
      (fun t => t.faulted == some .stackOverflow && t.PC == 0x202#16 && t.stack.length == 16) = true := by decide

/-- V-CF: `3342` skips with V3 = 42, and wraps at FFFC. -/
theorem test_se_imm_skips_and_wraps :
    stepGives (regs [(3#4, 0x42#8)] (placedAt 0xFFFC#16 0x3342#16)) (fun t => t.PC == 0x0000#16) = true := by decide

/-- V-CF: `4342` does not skip with V3 = 42. -/
theorem test_sne_imm_equal : stepGives (regs [(3#4, 0x42#8)] (placed 0x4342#16)) (fun t => t.PC == 0x202#16) = true := by decide

/-- V-CF: `5127` with V1 = V2 = 07 skips (n ignored). -/
theorem test_se_reg_skips :
    stepGives (regs [(1#4, 7#8), (2#4, 7#8)] (placed 0x5127#16)) (fun t => t.PC == 0x204#16) = true := by decide

/-- V-ALU: `6FAA` writes VF as a destination. -/
theorem test_ld_imm_into_vf : stepGives (placed 0x6FAA#16) (fun t => t.readV 15#4 == 0xAA#8) = true := by decide

/-- V-ALU: `7101` with V1 = FF and VF = 05 wraps and leaves VF. -/
theorem test_add_imm_wraps_without_flag :
    stepGives (regs [(1#4, 0xFF#8), (15#4, 5#8)] (placed 0x7101#16))
      (fun t => t.readV 1#4 == 0#8 && t.readV 15#4 == 5#8) = true := by decide

/-- V-ALU: `8120` copies V2 to V1. -/
theorem test_ld_reg : stepGives (regs [(2#4, 0x3C#8)] (placed 0x8120#16)) (fun t => t.readV 1#4 == 0x3C#8) = true := by decide

/-- V-ALU: `8121` with 0F, F0 and VF = 55. -/
theorem test_or : stepGives (regs [(1#4, 0x0F#8), (2#4, 0xF0#8), (15#4, 0x55#8)] (placed 0x8121#16))
    (fun t => t.readV 1#4 == 0xFF#8 && t.readV 15#4 == 0x55#8) = true := by decide

/-- V-ALU: `8122` with 0F, 3C and VF = 55. -/
theorem test_and : stepGives (regs [(1#4, 0x0F#8), (2#4, 0x3C#8), (15#4, 0x55#8)] (placed 0x8122#16))
    (fun t => t.readV 1#4 == 0x0C#8 && t.readV 15#4 == 0x55#8) = true := by decide

/-- V-ALU: `8123` with 0F, 3C and VF = 55. -/
theorem test_xor : stepGives (regs [(1#4, 0x0F#8), (2#4, 0x3C#8), (15#4, 0x55#8)] (placed 0x8123#16))
    (fun t => t.readV 1#4 == 0x33#8 && t.readV 15#4 == 0x55#8) = true := by decide

/-- W1: FF + 01. -/
theorem test_add_carry : stepGives (regs [(1#4, 0xFF#8), (2#4, 1#8)] (placed 0x8124#16))
    (fun t => t.readV 1#4 == 0#8 && t.readV 15#4 == 1#8) = true := by decide

/-- V-ALU: `8F14` with VF = FF, V1 = 01: the flag wins. -/
theorem test_add_into_vf : stepGives (regs [(15#4, 0xFF#8), (1#4, 1#8)] (placed 0x8F14#16))
    (fun t => t.readV 15#4 == 1#8) = true := by decide

/-- W2: 03 - 03 is strict. -/
theorem test_sub_equal : stepGives (regs [(1#4, 3#8), (2#4, 3#8)] (placed 0x8125#16))
    (fun t => t.readV 1#4 == 0#8 && t.readV 15#4 == 0#8) = true := by decide

/-- W2: FF - 00. -/
theorem test_sub_greater : stepGives (regs [(1#4, 0xFF#8), (2#4, 0#8)] (placed 0x8125#16))
    (fun t => t.readV 1#4 == 0xFF#8 && t.readV 15#4 == 1#8) = true := by decide

/-- W3: `SHR` of FF. -/
theorem test_shr : stepGives (regs [(1#4, 0xFF#8)] (placed 0x8106#16))
    (fun t => t.readV 1#4 == 0x7F#8 && t.readV 15#4 == 1#8) = true := by decide

/-- V-ALU: `8126` with V1 = 04, V2 = FF: y is ignored. -/
theorem test_shr_ignores_y : stepGives (regs [(1#4, 4#8), (2#4, 0xFF#8)] (placed 0x8126#16))
    (fun t => t.readV 1#4 == 2#8 && t.readV 15#4 == 0#8) = true := by decide

/-- V-ALU: `8127` with 0A and 03. -/
theorem test_subn_borrow : stepGives (regs [(1#4, 0x0A#8), (2#4, 3#8)] (placed 0x8127#16))
    (fun t => t.readV 1#4 == 0xF9#8 && t.readV 15#4 == 0#8) = true := by decide

/-- V-ALU: `810E` with 81. -/
theorem test_shl : stepGives (regs [(1#4, 0x81#8)] (placed 0x810E#16))
    (fun t => t.readV 1#4 == 2#8 && t.readV 15#4 == 1#8) = true := by decide

/-- V-ALU: `8F0E` with VF = 40: the old bit 7. -/
theorem test_shl_into_vf : stepGives (regs [(15#4, 0x40#8)] (placed 0x8F0E#16)) (fun t => t.readV 15#4 == 0#8) = true := by decide

/-- V-CF: `9120` with 07 and 08 skips. -/
theorem test_sne_reg_skips :
    stepGives (regs [(1#4, 7#8), (2#4, 8#8)] (placed 0x9120#16)) (fun t => t.PC == 0x204#16) = true := by decide

/-- V-TMR: `AFFF` replaces I. -/
theorem test_ld_i : stepGives { placed 0xAFFF#16 with I := 0x123#16 } (fun t => t.I == 0x0FFF#16) = true := by decide

/-- V-CF: `BFFF` with V0 = FF reaches 10FE. -/
theorem test_jp_v0_beyond_memory :
    stepGives (regs [(0#4, 0xFF#8)] (placed 0xBFFF#16)) (fun t => t.PC == 0x10FE#16) = true := by decide

/-- V-ALU: `C300` with any draw. -/
theorem test_rnd_zero_mask : ∃ t, exec (.rnd 3#4 0#8) State.reset = .next t ∧ t.readV 3#4 = 0#8 :=
  ⟨_, rfl, BitVec.and_zero⟩

/-- V-DSP: `D011` over glyph "0" with only fb[3][0] on: columns 0, 1 and 2 turn on, column 3 is erased, VF = 1. -/
theorem test_drw_collision :
    stepGives { placed 0xD011#16 with fb := Framebuffer.setPixel State.reset.fb 3 0 true } (fun t =>
      t.readV 15#4 == 1#8 && t.ports.length == 4 &&
      [0, 1, 2, 3, 4].map (fun c => Framebuffer.pixel t.fb c 0) == [true, true, true, false, false]) = true := by decide

/-- V-DSP: `DF01` with VF = 08, the byte 80 at 300: VF is sampled before it is reset. -/
theorem test_drw_samples_vf :
    stepGives (bytes 0x300 [0x80#8] (regs [(15#4, 8#8)] { placed 0xDF01#16 with I := 0x300#16 })) (fun t =>
      t.readV 15#4 == 0#8 && Framebuffer.pixel t.fb 8 0 && !(Framebuffer.pixel t.fb 0 0)) = true := by decide

/-- V-KEY: `E19E` with V1 = 1F asks for 1F, and PC is 0202 or 0204. -/
theorem test_skp_either_answer : ∃ t, exec (.skp 1#4) (State.reset.writeV 1#4 0x1F#8) = .next t ∧
    (t.PC = 0x202#16 ∨ t.PC = 0x204#16) := by
  refine ⟨_, rfl, ?_⟩
  cases h : (State.reset.writeV 1#4 0x1F#8).keyAnswer
  · exact .inl rfl
  · exact .inr rfl

/-- V-KEY: `E1A1`: PC is 0204 exactly where the answer is false. -/
theorem test_sknp_either_answer : ∃ t, exec (.sknp 1#4) State.reset = .next t ∧
    (t.PC = 0x202#16 ↔ State.reset.keyAnswer = true) := by
  refine ⟨_, rfl, ?_⟩
  cases h : State.reset.keyAnswer
  · exact ⟨fun e => absurd e (by decide), fun e => absurd e (by decide)⟩
  · exact ⟨fun _ => rfl, fun _ => rfl⟩

/-- V-TMR: `F207` with DT = 3C. -/
theorem test_ld_vx_dt : stepGives { placed 0xF207#16 with DT := 0x3C#8 } (fun t => t.readV 2#4 == 0x3C#8) = true := by decide

/-- V-KEY: `F30A` pauses; PC = 0202, V3 unchanged, one arm. -/
theorem test_ld_vx_k_arms :
    stepGives (regs [(3#4, 9#8)] (placed 0xF30A#16)) (fun t => t.paused && t.waitReg == some 3#4 && t.PC == 0x202#16 &&
      t.readV 3#4 == 9#8 && t.ports == [.keyWaitArm]) = true := by decide

/-- V-TMR: `F215` with V2 = 3C. -/
theorem test_ld_dt_vx : stepGives (regs [(2#4, 0x3C#8)] (placed 0xF215#16)) (fun t => t.DT == 0x3C#8 && t.ST == 0#8) = true := by
  decide

/-- V-TMR: `F218` with V2 = 02. -/
theorem test_ld_st_vx : stepGives (regs [(2#4, 2#8)] (placed 0xF218#16)) (fun t => t.ST == 2#8 && t.DT == 0#8) = true := by decide

/-- V-TMR: `F11E` with I = FFFF, V1 = 02. -/
theorem test_add_i_wraps :
    stepGives (regs [(1#4, 2#8)] { placed 0xF11E#16 with I := 0xFFFF#16 }) (fun t => t.I == 1#16 && t.readV 15#4 == 0#8) = true := by
  decide

/-- V-TMR: `F11E` with I = 0FFF, V1 = 01 passes 0x1000 without a flag. -/
theorem test_add_i_no_flag :
    stepGives (regs [(1#4, 1#8)] { placed 0xF11E#16 with I := 0x0FFF#16 }) (fun t =>
      t.I == 0x1000#16 && t.readV 15#4 == 0#8) = true := by decide

/-- V-TMR: `F029` with V0 = FF is unmasked. -/
theorem test_ld_f_unmasked : stepGives (regs [(0#4, 0xFF#8)] (placed 0xF029#16)) (fun t => t.I == 0x04FB#16) = true := by decide

/-- V-TMR: `F433` with V4 = 9C at I = FFE wraps. -/
theorem test_bcd_wraps :
    stepGives (regs [(4#4, 0x9C#8)] { placed 0xF433#16 with I := 0xFFE#16 }) (fun t =>
      dump t 0xFFE 2 == [1#8, 5#8] && t.readMem 0 == 6#8 && t.I == 0xFFE#16) = true := by decide

/-- W6: 156. -/
theorem test_bcd_156 :
    stepGives (regs [(4#4, 0x9C#8)] { placed 0xF433#16 with I := 0x300#16 }) (fun t => dump t 0x300 3 == [1#8, 5#8, 6#8]) = true := by
  decide

/-- W10: `F255` leaves out V2 by default. -/
theorem test_store_exclusive :
    stepGives (regs [(0#4, 0x0A#8), (1#4, 0x0B#8), (2#4, 0x0C#8)] { placed 0xF255#16 with I := 0x400#16 }) (fun t =>
      dump t 0x400 3 == [0x0A#8, 0x0B#8, 0#8] && t.I == 0x400#16) = true := by decide

/-- W10: `F255` with `REG_BLOCK_INCLUSIVE`. -/
theorem test_store_inclusive :
    stepGives (regs [(0#4, 0x0A#8), (1#4, 0x0B#8), (2#4, 0x0C#8)]
        { placed 0xF255#16 with I := 0x400#16, params := { stackDepth := none, regBlockInclusive := true } }) (fun t =>
      dump t 0x400 3 == [0x0A#8, 0x0B#8, 0x0C#8]) = true := by decide

/-- V-TMR: `F265` from 07 08 09, V2 unchanged. -/
theorem test_load_exclusive :
    stepGives (bytes 0x300 [7#8, 8#8, 9#8] { placed 0xF265#16 with I := 0x300#16 }) (fun t =>
      t.readV 0#4 == 7#8 && t.readV 1#4 == 8#8 && t.readV 2#4 == 0#8) = true := by decide

/-- V-TMR: `FF65`, inclusive, reaches VF. -/
theorem test_load_inclusive_reaches_vf :
    stepGives (bytes 0x30F [0x1F#8] { placed 0xFF65#16 with
        I := 0x300#16, params := { stackDepth := none, regBlockInclusive := true } }) (fun t =>
      t.readV 15#4 == 0x1F#8) = true := by decide

/-! ## Cycle, tick, keys, load -/

/-- V-CYC: PC = 0FFF fetches across the end of memory. -/
theorem test_fetch_wraps : stepGives (placedAt 0xFFF#16 0x612A#16) (fun t => t.readV 1#4 == 0x2A#8 && t.PC == 0x1001#16) = true := by
  decide

/-- V-CYC: the font word F090 at PC = 1000 is a NOP. -/
theorem test_unknown_word_advances :
    stepGives { State.reset with PC := 0x1000#16 } (fun t => t.PC == 0x1002#16 && t.mem == []) = true := by decide

/-- V-CYC: a paused core does nothing. -/
theorem test_paused_step_does_nothing :
    stepGives { placed 0x612A#16 with paused := true, waitReg := some 3#4 } (fun t => t.PC == 0x200#16 && t.readV 1#4 == 0#8) = true := by
  decide

/-- V-TICK: DT = 05, ST = 02 give 04 and 01 and a play. -/
theorem test_tick_end_decrements :
    stepGives { State.reset with DT := 5#8, ST := 2#8, phase := .burst 0 } (fun t =>
      t.DT == 4#8 && t.ST == 1#8 && t.ports == [.audioPlay, .dispRender] && t.phase == .between) = true := by decide

/-- V-TICK: a paused core keeps DT = 05, ST = 03 and plays. -/
theorem test_tick_end_paused :
    stepGives { State.reset with DT := 5#8, ST := 3#8, paused := true, waitReg := some 0#4, phase := .burst 0 } (fun t =>
      t.DT == 5#8 && t.ST == 3#8 && t.ports == [.audioPlay, .dispRender]) = true := by decide

/-- V-TICK: ST = 01 ends at 00 with a stop. -/
theorem test_tick_end_stops :
    stepGives { State.reset with ST := 1#8, phase := .burst 0 } (fun t =>
      t.ST == 0#8 && t.ports == [.audioStop, .dispRender]) = true := by decide

/-- R423: a tick that fires with one `step()` of another left runs that step (`LD ST,V2` of 02), its end (ST = 01) and then a whole tick
(ST = 00): PC has passed one instruction and two more. -/
theorem test_ticks_do_not_overlap :
    (match (regs [(2#4, 2#8)] { placed 0xF218#16 with phase := .burst 1, driver := ⟨60, 2, true⟩ } : State).tick with
      | .next t => t.PC == 0x206#16 && t.ST == 0#8 && t.phase == .between && t.ports == [.audioStop, .dispRender]
      | _ => false) = true := by decide

/-- V-KEY: with waitReg = 3, key-downs 2 and 4 in one gap leave V3 = 02. -/
theorem test_first_key_of_the_gap_wins :
    stepGives { State.reset with paused := true, waitReg := some 3#4, phase := .burst 0, keyInput := [[2#4, 4#4]] } (fun t =>
      t.readV 3#4 == 2#8 && !t.paused && t.waitReg == none) = true := by decide

/-- V-RST: `loadProgram([AA, BB])`. -/
theorem test_loadProgram :
    ((State.reset.loadProgram [0xAA#8, 0xBB#8]).toOption.map fun t => dump t 0x1FF 4) = some [0#8, 0xAA#8, 0xBB#8, 0#8] := by decide

/-- V-RST: the last font byte, and the zeros around it. -/
theorem test_reset_memory :
    State.reset.readMem 0x4F = 0x80#8 ∧ State.reset.readMem 0x50 = 0#8 ∧ State.reset.readMem 0xFFF = 0#8 := by decide

set_option maxRecDepth 10000 in
/-- V-RST: construction with R9's defaults is the reset state. -/
theorem test_construct_defaults : construct Params.default 60 10 fontRom State.reset.fb = State.reset := by
  have h : Memory.writeBytes [] 0 fontRom.toList = [] := by decide
  unfold construct
  rw [h]
  rfl

/-- W5: (70, -1) is (6, 31). -/
theorem test_display_wrap :
    Framebuffer.pixel (Framebuffer.toggle State.reset.fb 70 (-1)) 6 31 = true := by decide

/-! ## Witnesses: each obligation's hypotheses are met together -/

/-- The addresses of `ResetHoldsTheTable` and `ConstructTakesFontAndParameters` at both ends of the range. -/
theorem witness_reset_zeros : (0x50 ≤ 0x50 ∧ 0x50 < 4096) ∧ (0x50 ≤ 4095 ∧ 4095 < 4096) ∧ (0 < 80 ∧ 79 < 80) := by decide

/-- The canonical form holds of the reset memory with a word placed at 0x200. -/
theorem placed_inv : (placed 0x2300#16).Inv := by decide

/-- `EveryStepKeepsInvariant`. -/
theorem witness_every_step_keeps_invariant : ∃ t, (placed 0x2300#16).Inv ∧ step (placed 0x2300#16) = .next t := ⟨_, placed_inv, rfl⟩

/-- `DecodingAnEncodingGivesItBack`: the largest SYS operand, and a row without a check. -/
theorem witness_decoding_an_encoding : (Instr.sys 0xFFF#12).wellFormed = true ∧ (Instr.drw 15#4 15#4 15#4).wellFormed = true := by
  decide

/-- `DecodedWordLiesInItsTableRow`. -/
theorem witness_decoded_word : decode 0x912F#16 = .instr (.sneReg 1#4 2#4) := by decide

/-- `UnknownWordsAreExactlyTheListed`: a word under each clause, and one under none. -/
theorem witness_unknown_words :
    ((0x8008#16 : Word).toNat / 4096 = 0x8 ∧ (0x8008#16 : Word).toNat % 16 ∈ [0x8, 0x9, 0xA, 0xB, 0xC, 0xD, 0xF]) ∧
    ((0xE09F#16 : Word).toNat / 4096 = 0xE ∧ (0xE09F#16 : Word).toNat % 256 ∉ [0x9E, 0xA1]) ∧
    ((0xF0FF#16 : Word).toNat / 4096 = 0xF ∧
      (0xF0FF#16 : Word).toNat % 256 ∉ [0x07, 0x0A, 0x15, 0x18, 0x1E, 0x29, 0x33, 0x55, 0x65]) ∧
    decode 0x800E#16 = .instr (.shl 0#4) := by decide

/-- `StepRunsTheDecodedInstruction`, at the start of a tick. -/
theorem witness_step_runs : (placed 0x6A2B#16).stepsLeft = 9 + 1 ∧ (placed 0x6A2B#16).paused = false ∧
    (placed 0x6A2B#16).faulted = none ∧ decode (placed 0x6A2B#16).fetch = .instr (.ldImm 10#4 0x2B#8) := by decide

/-- `StepRunsTheDecodedInstruction`, at the last step of a burst. -/
theorem witness_step_runs_last : ({ placed 0x6A2B#16 with phase := .burst 1 } : State).stepsLeft = 0 + 1 ∧
    decode ({ placed 0x6A2B#16 with phase := .burst 1 } : State).fetch = .instr (.ldImm 10#4 0x2B#8) := by decide

/-- `UnknownOpcodeOnlyAdvances`. -/
theorem witness_unknown_opcode : (placed 0x8008#16).stepsLeft = 9 + 1 ∧ (placed 0x8008#16).paused = false ∧
    (placed 0x8008#16).faulted = none ∧ decode (placed 0x8008#16).fetch = .unknown (.group8 8#4) := by decide

/-- A paused state. -/
def waiting : State := { State.reset with paused := true, waitReg := some 15#4 }

/-- A faulted state. -/
def overflowed : State :=
  { State.reset with faulted := some .stackOverflow, params := { stackDepth := some 0, regBlockInclusive := false } }

/-- `HaltedStepDoesNothing` and `HaltedTickOnlyReports`: paused, and faulted. -/
theorem witness_halted : (waiting.stepsLeft = 9 + 1 ∧ (waiting.paused = true ∨ waiting.faulted ≠ none)) ∧
    (overflowed.stepsLeft = 9 + 1 ∧ (overflowed.paused = true ∨ overflowed.faulted ≠ none)) := by decide

/-- `TickEndUpdatesTimersThenReports`: a state under each branch of its timer clauses. -/
theorem witness_tick_end : (waiting.paused = true ∨ waiting.faulted ≠ none) ∧
    ¬ (State.reset.paused = true ∨ State.reset.faulted ≠ none) := by decide

/-- `StepWithNoneLeftEndsTheTick`: the end of a burst, and a tick of no steps; a pending wait with an event is `witness_gap_events`. -/
theorem witness_none_left : ({ State.reset with phase := .burst 0 } : State).stepsLeft = 0 ∧
    ({ State.reset with driver := { Driver.default with cyclesPerTick := 0 } } : State).stepsLeft = 0 := by decide

/-- `StepsOfATickAreAdvance` and `StartAndStopLeaveTheEngineAlone`: at a tick boundary, and inside a tick with no step left. -/
theorem witness_tick_boundary : State.reset.phase = .between ∧ ({ State.reset with phase := .burst 0 } : State).phase = .burst 0 := by
  decide

/-- `TickEndsWithOneAudioCallAndOneRender`. -/
theorem witness_advance : ∃ t, State.advance 1 (placed 0x00E0#16) = .next t := ⟨_, rfl⟩

/-- `TimersChangeInABurstOnlyByTheirStores`. -/
theorem witness_burst_step : ∃ t, (placed 0xF215#16).stepsLeft = 9 + 1 ∧ step (placed 0xF215#16) = .next t := ⟨_, by decide, rfl⟩

/-- `KeyDownCompletesAPendingWait`: with a wait, and without. -/
theorem witness_key_down : (waiting.phase = .between ∧ waiting.waitReg = some 15#4) ∧
    (State.reset.phase = .between ∧ State.reset.waitReg = none) := by decide

/-- A paused state at the end of a burst, with two events to come in the gap. -/
def waitingAtTickEnd : State := { waiting with phase := .burst 0, keyInput := [[7#4, 2#4]] }

/-- `GapEventsCompleteTheWaitOnce`: each clause. -/
theorem witness_gap_events :
    (({ State.reset with phase := .burst 3 } : State).phase = .burst 3 ∧ State.reset.keyInput = []) ∧
    (waitingAtTickEnd.phase = .burst 0 ∧ waitingAtTickEnd.stepsLeft = 0) ∧
    (waitingAtTickEnd.waitReg = some 15#4 ∧ waitingAtTickEnd.keyInput = [[7#4, 2#4]]) ∧ State.reset.waitReg = none := by decide

/-- `PausedChangesOnlyByKeyWaitAndKey`: a step that pauses. -/
theorem witness_pauses : ∃ t, step (placed 0xFF0A#16) = .next t ∧ (placed 0xFF0A#16).paused = false ∧ t.paused = true :=
  ⟨_, rfl, by decide, by decide⟩

/-- `PausedChangesOnlyByKeyWaitAndKey`: a step that resumes. -/
theorem witness_resumes : ∃ t, step waitingAtTickEnd = .next t ∧ waitingAtTickEnd.paused = true ∧ t.paused = false :=
  ⟨_, rfl, by decide, by decide⟩

/-- A state with one entry on the stack. -/
def inSubroutine : State := { State.reset with stack := [0x202#16] }

/-- `RetPopsOrFallsThrough`: each clause. -/
theorem witness_ret : inSubroutine.stack = [] ++ [0x202#16] ∧ State.reset.stack = [] := by decide

/-- A state whose finite stack is full. -/
def fullStack : State := { inSubroutine with params := { stackDepth := some 1, regBlockInclusive := false } }

/-- `CallPushesOrFaults`: each clause, the second with an unbounded and with a finite stack. -/
theorem witness_call : fullStack.params.stackDepth = some fullStack.stack.length ∧
    State.reset.params.stackDepth ≠ some State.reset.stack.length ∧
    ({ fullStack with stack := [] } : State).params.stackDepth ≠ some 0 := by decide

/-- `CallThenRetComesBack`. -/
theorem witness_call_then_ret : ∃ t, State.reset.params.stackDepth ≠ some State.reset.stack.length ∧
    exec (.call 0x300#12) State.reset = .next t := ⟨_, by decide, rfl⟩

/-- `PCLeavesTheSequenceOnlyByControlFlow`: a jump, and a skip. -/
theorem witness_pc_leaves :
    (∃ t, exec (.jp 0x300#12) State.reset = .next t ∧ ¬ PCMoves 2 State.reset t) ∧
    (∃ t, exec (.seImm 0#4 0#8) State.reset = .next t ∧ ¬ PCMoves 2 State.reset t) :=
  ⟨⟨_, rfl, by unfold PCMoves; decide⟩, ⟨_, rfl, by unfold PCMoves; decide⟩⟩

/-- `StackChangesOnlyByCallAndRet`: a push, and a pop. -/
theorem witness_stack_changes :
    (∃ t, exec (.call 0x300#12) State.reset = .next t ∧ t.stack ≠ State.reset.stack) ∧
    (∃ t, exec .ret inSubroutine = .next t ∧ t.stack ≠ inSubroutine.stack) := ⟨⟨_, rfl, by decide⟩, ⟨_, rfl, by decide⟩⟩

/-- `StackOverflowIsSticky`: a faulted state without a wait, and with one. -/
theorem witness_sticky_faulted : (∃ t, step overflowed = .next t ∧ overflowed.faulted ≠ none ∧ overflowed.waitReg = none) ∧
    (∃ t, step { waitingAtTickEnd with faulted := some .stackOverflow } = .next t ∧ waitingAtTickEnd.waitReg = some 15#4) :=
  ⟨⟨_, rfl, by decide⟩, ⟨_, rfl, rfl⟩⟩

/-- `StackOverflowIsSticky`: a faulted state, and an unbounded stack. -/
theorem witness_sticky : (∃ t, step overflowed = .next t ∧ overflowed.faulted ≠ none) ∧
    (∃ t, step State.reset = .next t ∧ State.reset.params.stackDepth = none ∧ State.reset.faulted = none) :=
  ⟨⟨_, rfl, by decide⟩, ⟨_, rfl, by decide, by decide⟩⟩

/-- `VFChangesOnlyAsFlagOrDestination`: a flag, a destination, and an inclusive block load. -/
theorem witness_vf_changes :
    (∃ t, exec (.addReg 0#4 1#4) (regs [(0#4, 0xFF#8), (1#4, 1#8)] State.reset) = .next t ∧ t.readV 15#4 ≠ 0#8) ∧
    (∃ t, exec (.ldImm 15#4 7#8) State.reset = .next t ∧ t.readV 15#4 ≠ State.reset.readV 15#4) ∧
    (∃ t, exec (.ldVxMem 15#4) { State.reset with params := { stackDepth := none, regBlockInclusive := true } } = .next t ∧
      t.readV 15#4 ≠ State.reset.readV 15#4) :=
  ⟨⟨_, rfl, by decide⟩, ⟨_, rfl, by decide⟩, ⟨_, rfl, by decide⟩⟩

/-- `DisplayContract`: the pixel (6, 31), reached from (70, -1). -/
theorem witness_display : (70 : Int) % 64 = (6 : Fin 64) ∧ (-1 : Int) % 32 = (31 : Fin 32) := by decide

/-- `DrwInvertsTheSpriteAndSetsCollision`: glyph "0" at (0, 0) covers (0, 0) and not (1, 1). -/
theorem witness_sprite : SpriteCovers State.reset 0#4 0#4 5#4 0 0 ∧ ¬ SpriteCovers State.reset 0#4 0#4 1#4 1 1 := by
  refine ⟨⟨0, 0, by decide⟩, ?_⟩
  rintro ⟨dr, dc, h1, h2, -, h4, -⟩
  have h1 : dr < 1 := h1
  have h4 : (0 + dr) % 32 = 1 := h4
  omega

/-- `DrwInvertsTheSpriteAndSetsCollision`: a set pixel under the sprite, on a lit display. -/
theorem witness_collision : ∃ c r, SpriteCovers { State.reset with fb := lit } 0#4 0#4 5#4 c r ∧
    Framebuffer.pixel lit c r = true := ⟨0, 0, ⟨0, 0, by decide⟩, by decide⟩

/-- No pixel of the reset display is set. -/
theorem reset_dark (c : Fin 64) (r : Fin 32) : Framebuffer.pixel State.reset.fb c r = false := by
  simp [Framebuffer.pixel, State.reset]

/-- `DrwInvertsTheSpriteAndSetsCollision` (no collision) and `DrawingTwiceErases`: the dark display under glyph "0". -/
theorem witness_drawing_twice : ∃ t, (0#4 : Reg) ≠ 15#4 ∧
    (∀ c r, SpriteCovers State.reset 0#4 0#4 5#4 c r → Framebuffer.pixel State.reset.fb c r = false) ∧
    exec (.drw 0#4 0#4 5#4) State.reset = .next t ∧ (∃ c r, SpriteCovers State.reset 0#4 0#4 5#4 c r) :=
  ⟨_, by decide, fun c r _ => reset_dark c r, rfl, 0, 0, ⟨0, 0, by decide⟩⟩

/-- A state whose I is the last address of memory. -/
def atTheEnd : State := { State.reset with I := 0xFFF#16 }

/-- `LdBStoresThreeDigits`: 0x002 lies just outside the wrapped block at FFF, and 0x001 inside it. -/
theorem witness_bcd_outside : (∀ k < 3, (atTheEnd.I.toNat + k) % 4096 ≠ 2 % 4096) ∧ (atTheEnd.I.toNat + 2) % 4096 = 1 := by decide

/-- `LdMemVxStoresTheBlock` and `LdVxMemLoadsTheBlock`: V1 is the last register of a block of x = 2 and V2 outside it; 0x001 lies just outside
the wrapped block at FFF. -/
theorem witness_block : (1#4 : Reg).toNat < BlockSize atTheEnd 2#4 ∧ BlockSize atTheEnd 2#4 ≤ (2#4 : Reg).toNat ∧
    (∀ k < BlockSize atTheEnd 2#4, (atTheEnd.I.toNat + k) % 4096 ≠ 1 % 4096) := by
  refine ⟨by unfold BlockSize; decide, by unfold BlockSize; decide, ?_⟩
  unfold BlockSize
  decide

/-- `LdMemVxStoresTheBlock` and `LdVxMemLoadsTheBlock`, inclusive: V15 is in a block of x = 15. -/
theorem witness_block_inclusive :
    (15#4 : Reg).toNat < BlockSize { State.reset with params := { stackDepth := none, regBlockInclusive := true } } 15#4 := by
  unfold BlockSize
  decide

/-- `ReadGivesTheLatestWrite`: the same index under two addresses, and two indices. -/
theorem witness_addresses : 0x1000 % 4096 = 0 % 4096 ∧ 0xFFF % 4096 ≠ 0x1000 % 4096 := by decide

/-- `OnlyBcdAndBlockStoreWriteMemory`: a digit, and a block byte. -/
theorem witness_memory_changes :
    (∃ t, exec (.ldB 0#4) (State.reset.writeV 0#4 0xFF#8) = .next t ∧ t.readMem 0 ≠ State.reset.readMem 0) ∧
    (∃ t, exec (.ldMemVx 1#4) State.reset = .next t ∧ t.readMem 0 ≠ State.reset.readMem 0) :=
  ⟨⟨_, rfl, by decide⟩, ⟨_, rfl, by decide⟩⟩

/-- `LoadProgramCopiesOrRefuses`: the largest program and the smallest refused one. -/
theorem witness_load : (List.replicate 3584 0#8).length ≤ 3584 ∧ 3584 < (List.replicate 3585 (0#8 : Byte)).length := by
  rw [List.length_replicate, List.length_replicate]
  decide

/-- `LoadProgramCopiesOrRefuses`: the last byte of a program of two, and the addresses just below and just above it. -/
theorem witness_load_bounds : 1 < [0xAA#8, 0xBB#8].length ∧ (0x1FF < 4096 ∧ 0x1FF < 0x200) ∧
    (0x202 < 4096 ∧ 0x200 + [0xAA#8, 0xBB#8].length ≤ 0x202) := by decide

end Sys2Proof.Tests
end

