-- ==== Sys2Proof/Proofs/Scope.lean ====
section
/-! PROOFS. The family of 00_scope.md: construction with R9's parameters (R1101) and the draw of RND (R612). -/

namespace Sys2Proof.Proofs

open Sys2Proof Sys2Proof.Machine Sys2Proof.Claims

/-! What construction leaves in memory -/

/-- Above the font, an index that memory does not list reads as zero (D3). -/
theorem unlisted_eq_zero_of_ge {a : Nat} (h : 80 ≤ a) : Memory.unlisted a = 0#8 := by
  rw [Memory.unlisted, Vector.getElem?_eq_none h, Option.getD_none]

/-- Constructed memory holds the given font at its own indices, whatever the reset contents there (R1101). -/
theorem construct_readMem_font (params : Params) (tps cpt : Nat) (font : Vector Byte 80) (fbInit : Framebuffer)
    (k : Nat) (h : k < 80) : (construct params tps cpt font fbInit).readMem k = font[k] := by
  have hl : font.toList.length = 80 := font.length_toList
  have hr := Memory.read_writeBytes font.toList [] 0 k (by omega) (by rw [hl]; decide)
  rwa [Nat.zero_add, Vector.getElem_toList] at hr

/-- Writing the font does not reach past its 80 bytes, and there the reset contents are zero (D3). -/
theorem construct_readMem_above_font (params : Params) (tps cpt : Nat) (font : Vector Byte 80) (fbInit : Framebuffer)
    (a : Nat) (ha : 80 ≤ a) (ha' : a < memSize) : (construct params tps cpt font fbInit).readMem a = 0#8 := by
  have hi : memIndex a = a := Nat.mod_eq_of_lt ha'
  have houtside : ∀ k, k < font.toList.length → memIndex (0 + k) ≠ memIndex a := by
    intro k hk
    rw [font.length_toList] at hk
    have hki : memIndex (0 + k) = k := by rw [Nat.zero_add]; exact Nat.mod_eq_of_lt (by omega)
    omega
  calc (construct params tps cpt font fbInit).readMem a
      = Memory.read [] a := Memory.read_writeBytes_outside font.toList [] 0 a houtside
    _ = Memory.unlisted a := congrArg Memory.unlisted hi
    _ = 0#8 := unlisted_eq_zero_of_ge ha

/-- Every register of a constructed machine reads as zero (R130). -/
theorem construct_readV (params : Params) (tps cpt : Nat) (font : Vector Byte 80) (fbInit : Framebuffer) (x : Reg) :
    (construct params tps cpt font fbInit).readV x = 0#8 :=
  Vector.getElem_replicate x.isLt

/-- Settles O2: memory from the two laws of a byte sequence's write, the other fields by the definition of `construct`. -/
theorem constructTakesFontAndParameters : Obligations.ConstructTakesFontAndParameters := by
  intro params tps cpt font fbInit
  exact ⟨construct_readMem_font params tps cpt font fbInit, construct_readMem_above_font params tps cpt font fbInit,
    rfl, rfl, rfl, construct_readV params tps cpt font fbInit, rfl⟩

/-! Frames of instructions -/

/-- The default advance as a number (R404). -/
theorem pcMoves_two {s t : State} (h : t.PC = s.PC + 2#16) : PCMoves 2 s t := by
  rw [PCMoves, h, BitVec.toNat_add]
  rfl

/-- An instruction's frame has only its own parts to show: what surrounds them no instruction touches. -/
theorem keepsPartsBut_of_exec {i : Instr} {s t : State} {parts : List Part} (h : exec i s = .next t)
    (hparts : ∀ p, p ∉ parts → Same p s t) : KeepsPartsBut parts s t := by
  obtain ⟨hparams, hdriver, hphase, hkeyInput⟩ := exec_surroundings i s t h
  exact ⟨hparts, hparams, hdriver, hphase, hkeyInput⟩

/-- A write of `V[x]` leaves every other register as it was (R101). -/
theorem keepsRegsBut_writeV {s t : State} (h : ∀ y, t.readV y = s.readV y) (x : Reg) (b : Byte) :
    KeepsRegsBut [x] s (t.writeV x b) := by
  intro y hy
  have hxy : x ≠ y := fun e => hy (List.mem_singleton.mpr e.symm)
  rw [State.readV_writeV, if_neg hxy, h y]

/-- The state in which RND ends (R612). -/
theorem exec_rnd (x : Reg) (kk : Byte) (s : State) :
    exec (.rnd x kk) s = .next (s.advancePC.afterDrawByte.writeV x (s.drawByte &&& kk)) := rfl

/-- The frame of RND: `V[x]`, the ports and the count of draws (R612). -/
theorem rnd_straight (x : Reg) (kk : Byte) (s : State) :
    Straight [x] [.ports, .draws] s (s.advancePC.afterDrawByte.writeV x (s.drawByte &&& kk)) := by
  refine ⟨pcMoves_two rfl, keepsRegsBut_writeV (fun _ => rfl) x _, fun _ => rfl,
    keepsPartsBut_of_exec (exec_rnd x kk s) fun p hp => ?_⟩
  cases p with
  | ports | draws => simp at hp
  | wait => exact ⟨rfl, rfl⟩
  | I | stack | DT | ST | faulted | fb => rfl

/-- Settles O45: the byte is the one the state's count of draws names, whatever the free source gives there. -/
theorem rndMasksADraw : Obligations.RndMasksADraw := by
  intro x kk s
  refine ⟨s.drawByte, _, exec_rnd x kk s, fun k _ => ?_, rfl, rfl, rnd_straight x kk s⟩
  rw [State.readV_writeV, if_pos rfl, BitVec.getLsbD_and]

end Sys2Proof.Proofs
end

/-! PROOFS. The family of 10_state.md: what each instruction can change and what one step of the machine can do, the invariant, and the
rules of the state's single parts (R104 to R121), the reset table (R130). -/

namespace Sys2Proof.Proofs

open Sys2Proof Sys2Proof.Machine Sys2Proof.Claims

/-! What an instruction can change: said once for all 35, and cited by every rule about a single part -/

/-- The parts an instruction can change besides V, PC and memory. -/
def mayChange : Instr → List Part
  | .cls | .drw _ _ _ => [.fb, .ports]
  | .ret => [.stack]
  | .call _ => [.stack, .faulted]
  | .rnd _ _ | .skp _ | .sknp _ => [.ports, .draws]
  | .ldVxK _ => [.wait, .ports]
  | .ldDTVx _ => [.DT]
  | .ldSTVx _ => [.ST]
  | .ldI _ | .addI _ | .ldF _ => [.I]
  | _ => []

/-- The instructions that give PC a value of their own (R501 to R504). -/
def setsPC : Instr → Bool
  | .jp _ | .call _ | .ret | .jpV0 _ => true
  | _ => false

/-- The six skip instructions (R505 to R508, R801, R802). -/
def skips : Instr → Bool
  | .seImm _ _ | .sneImm _ _ | .seReg _ _ | .sneReg _ _ | .skp _ | .sknp _ => true
  | _ => false

/-- The registers an instruction can write: its destination, VF as a flag (R102), and the registers of a block load (R908). -/
def MayWrite (i : Instr) (s : State) (y : Reg) : Prop :=
  destination i = some y ∨ (writesFlag i = true ∧ y = VF) ∨ ∃ x, i = .ldVxMem x ∧ y.toNat < BlockSize s x

/-- The addresses an instruction can store to: the three digits of LD B (R906) and the block of LD [I],Vx (R907). -/
def MayStore (i : Instr) (s : State) (a : Nat) : Prop :=
  (∃ x, i = .ldB x ∧ ∃ k < 3, (s.I.toNat + k) % 4096 = a % 4096) ∨
  (∃ x, i = .ldMemVx x ∧ ∃ k < BlockSize s x, (s.I.toNat + k) % 4096 = a % 4096)

/-- The frame of an instruction: PC is two further or, by a skip, four, and nothing changes but what the instruction can change. -/
structure InstrFrame (i : Instr) (s t : State) : Prop where
  parts : ∀ p, p ∉ mayChange i → Same p s t
  pc : setsPC i = false → t.PC = s.PC + 2#16 ∨ (skips i = true ∧ t.PC = s.PC + 2#16 + 2#16)
  regs : ∀ y, ¬ MayWrite i s y → t.readV y = s.readV y
  mem : ∀ a, ¬ MayStore i s a → t.readMem a = s.readMem a

/-- Every part is the same where at most V, PC and memory differ. -/
theorem same_withVPCMem (s : State) (V : Vector Byte 16) (pc : Word) (mem : Memory) (p : Part) :
    Same p s { s with V := V, PC := pc, mem := mem } := by
  cases p with
  | wait => exact ⟨rfl, rfl⟩
  | _ => rfl

namespace InstrFrame

variable {i : Instr} {s u : State}

/-- The frame where registers and memory are as they were. -/
theorem of_sameVMem (hV : u.V = s.V) (hmem : u.mem = s.mem)
    (hpc : setsPC i = false → u.PC = s.PC + 2#16 ∨ (skips i = true ∧ u.PC = s.PC + 2#16 + 2#16))
    (hparts : ∀ p, p ∉ mayChange i → Same p s u) : InstrFrame i s u :=
  ⟨hparts, hpc, fun y _ => State.readV_congr hV y, fun a _ => State.readMem_congr hmem a⟩

/-- The default advance is in every instruction's frame (R404). -/
theorem advance (i : Instr) (s : State) : InstrFrame i s s.advancePC :=
  of_sameVMem rfl rfl (fun _ => .inl rfl) fun p _ => same_withVPCMem s _ _ _ p

/-- A write to a register the instruction can write stays in its frame. -/
theorem writeV (h : InstrFrame i s u) {x : Reg} (hx : MayWrite i s x) (b : Byte) : InstrFrame i s (u.writeV x b) where
  parts p hp := by
    have hu := h.parts p hp
    cases p <;> exact hu
  pc := h.pc
  regs y hy := by
    have hxy : x ≠ y := fun e => hy (e ▸ hx)
    rw [State.readV_writeV, if_neg hxy, h.regs y hy]
  mem := h.mem

/-- A result and then a flag stay in the frame of an instruction that writes both (R16, R102). -/
theorem writeResultAndFlag (h : InstrFrame i s u) {x : Reg} (hx : destination i = some x) (hflag : writesFlag i = true)
    (result flag : Byte) : InstrFrame i s (u.writeResultAndFlag x result flag) :=
  (h.writeV (.inl hx) result).writeV (.inr (.inl ⟨hflag, rfl⟩)) flag

/-- Bytes written where the instruction can store stay in its frame (R205). -/
theorem writeBytes (h : InstrFrame i s u) {a : Nat} {bs : List Byte} (hbs : ∀ k < bs.length, MayStore i s (a + k)) :
    InstrFrame i s { u with mem := u.mem.writeBytes a bs } where
  parts p hp := by
    have hu := h.parts p hp
    cases p <;> exact hu
  pc := h.pc
  regs := h.regs
  mem a' ha' := by
    have houtside : ∀ k, k < bs.length → memIndex (a + k) ≠ memIndex a' := by
      intro k hk e
      have hsame : (a + k) % 4096 = a' % 4096 := e
      have hk := hbs k hk
      unfold MayStore at ha' hk
      rw [hsame] at hk
      exact ha' hk
    exact (Memory.read_writeBytes_outside bs u.mem a a' houtside).trans (h.mem a' ha')

/-- A skip from a state two further stays in a skip instruction's frame (R509). -/
theorem skipIf (h : InstrFrame i s u) (hi : skips i = true) (hpc : u.PC = s.PC + 2#16) (c : Bool) :
    InstrFrame i s (u.skipIf c) := by
  rcases u.skipIf_cases c with ⟨_, e⟩ | ⟨_, e⟩ <;> rw [e]
  · refine ⟨fun p hp => ?_, fun _ => .inr ⟨hi, congrArg (· + 2#16) hpc⟩, h.regs, h.mem⟩
    have hu := h.parts p hp
    cases p <;> exact hu
  · exact h

/-- A draw and its record at the ports stay in the frame of an instruction that makes them (R612, R800). -/
theorem draw (h : InstrFrame i s u) (hports : .ports ∈ mayChange i) (hdraws : .draws ∈ mayChange i)
    (ports : List PortOp) (draws : Nat) : InstrFrame i s { u with ports := ports, draws := draws } := by
  refine ⟨fun p hp => ?_, h.pc, h.regs, h.mem⟩
  have hu := h.parts p hp
  cases p with
  | ports => exact absurd hports hp
  | draws => exact absurd hdraws hp
  | _ => exact hu

/-- Drawing stays in the frame of an instruction that writes the flag, the framebuffer and the ports (R711). -/
theorem drawReaches {t : State} (h : InstrFrame i s u) (hd : DrawReaches u t) (hflag : writesFlag i = true)
    (hfb : .fb ∈ mayChange i) (hports : .ports ∈ mayChange i) : InstrFrame i s t := by
  obtain ⟨flag, fb, ports, rfl⟩ := hd
  have hw := h.writeV (.inr (.inl ⟨hflag, rfl⟩)) flag
  refine ⟨fun p hp => ?_, hw.pc, hw.regs, hw.mem⟩
  have hu := hw.parts p hp
  cases p with
  | fb => exact absurd hfb hp
  | ports => exact absurd hports hp
  | _ => exact hu

end InstrFrame

/-- How many registers a block transfer moves, in the model's words and in the claims' (R907, R908). -/
theorem blockCount_eq_blockSize (s : State) (x : Reg) : s.blockCount x = BlockSize s x := by
  unfold State.blockCount BlockSize
  split <;> rfl

/-- Every instruction keeps to its frame (R104, R106). -/
theorem exec_frame {i : Instr} {s t : State} (h : exec i s = .next t) : InstrFrame i s t := by
  cases i <;> cases h
  case ldImm | addImm | ldReg | orReg | andReg | xorReg | ldVxDT =>
    exact (InstrFrame.advance _ s).writeV (.inl rfl) _
  case addReg | subReg | subnReg | shr | shl =>
    exact (InstrFrame.advance _ s).writeResultAndFlag rfl rfl _ _
  case seImm | sneImm | seReg | sneReg =>
    exact (InstrFrame.advance _ s).skipIf rfl rfl _
  case skp | sknp =>
    exact ((InstrFrame.advance _ s).draw (by simp [mayChange]) (by simp [mayChange]) _ _).skipIf rfl rfl _
  case rnd =>
    exact ((InstrFrame.advance _ s).draw (by simp [mayChange]) (by simp [mayChange]) _ _).writeV (.inl rfl) _
  case drw x y n =>
    have hreset := (InstrFrame.advance (.drw x y n) s).writeV (.inr (.inl ⟨rfl, rfl⟩)) 0#8
    exact hreset.drawReaches (State.drawRows_reaches _ _ _ _ _) rfl (by simp [mayChange]) (by simp [mayChange])
  case ldB x =>
    rw [State.storeBcd_eq]
    exact (InstrFrame.advance _ s).writeBytes fun k hk => .inl ⟨x, rfl, k, hk, rfl⟩
  case ldMemVx x =>
    rw [State.storeBlock_eq]
    refine (InstrFrame.advance _ s).writeBytes fun k hk => .inr ⟨x, rfl, k, ?_, rfl⟩
    rwa [State.firstRegs_length, blockCount_eq_blockSize] at hk
  case ldVxMem x =>
    obtain ⟨⟨V, hV⟩, hread⟩ := s.advancePC.loadBlock_spec (s.blockCount x) (s.blockCount_le x)
    refine ⟨fun p _ => ?_, fun _ => .inl (by rw [hV]; rfl), fun y hy => ?_, fun a _ => by rw [hV]; rfl⟩
    · rw [hV]; exact same_withVPCMem s V _ _ p
    · have hout : ¬ y.toNat < s.blockCount x := by
        rw [blockCount_eq_blockSize]
        exact fun hlt => hy (.inr (.inr ⟨x, rfl, hlt⟩))
      rw [hread y, if_neg hout]; rfl
  case ret =>
    rcases s.advancePC.popToPC_cases with ⟨_, _, _, e⟩ | ⟨_, e⟩ <;> rw [e] <;>
      exact .of_sameVMem rfl rfl nofun fun p hp => by cases p <;> simp_all [mayChange, Same]
  case call nnn =>
    rcases s.advancePC.callSubroutine_cases (addrOperand nnn) with ⟨_, e⟩ | ⟨_, e⟩ <;> rw [e] <;>
      exact .of_sameVMem rfl rfl nofun fun p hp => by cases p <;> simp_all [mayChange, Same]
  case jp | jpV0 =>
    exact .of_sameVMem rfl rfl nofun fun p _ => same_withVPCMem s _ _ _ p
  case sys => exact .advance _ s
  case cls | ldVxK | ldDTVx | ldSTVx | ldI | addI | ldF =>
    exact .of_sameVMem rfl rfl (fun _ => .inl rfl) fun p hp => by cases p <;> simp_all [mayChange, Same]

/-- The frame of an instruction that neither touches PC beyond the default advance nor stores to memory. -/
theorem straight_of_exec {i : Instr} {s t : State} {regs : List Reg} (h : exec i s = .next t) (hset : setsPC i = false)
    (hskip : skips i = false) (hregs : ∀ y, MayWrite i s y → y ∈ regs) (hmem : ∀ a, ¬ MayStore i s a) :
    Straight regs (mayChange i) s t := by
  have hframe := exec_frame h
  refine ⟨?_, fun y hy => hframe.regs y fun hw => hy (hregs y hw), fun a => hframe.mem a (hmem a),
    keepsPartsBut_of_exec h hframe.parts⟩
  rcases hframe.pc hset with hpc | ⟨hskip', _⟩
  · exact pcMoves_two hpc
  · simp [hskip] at hskip'

/-! What an instruction can do to the parts the invariant speaks of -/

/-- The stack is full exactly where `STACK_DEPTH` is finite and it holds that many entries (R503). -/
theorem stackFull_iff (s : State) : s.stackFull = true ↔ s.params.stackDepth = some s.stack.length := by
  unfold State.stackFull
  cases s.params.stackDepth with
  | none => simp
  | some depth => rw [beq_iff_eq, Option.some_inj, eq_comm]

/-- What an instruction can do to the stack and the fault: nothing, the overflow or the push of CALL, the pop of RET (R108, R121). -/
theorem exec_stack_cases {i : Instr} {s t : State} (h : exec i s = .next t) :
    (t.stack = s.stack ∧ t.faulted = s.faulted) ∨
    (s.stackFull = true ∧ t.stack = s.stack ∧ t.faulted = some .stackOverflow) ∨
    (∃ nnn w, i = .call nnn ∧ s.stackFull = false ∧ t.stack = s.stack ++ [w] ∧ t.faulted = s.faulted) ∨
    (∃ w, i = .ret ∧ s.stack = t.stack ++ [w] ∧ t.PC = w ∧ t.faulted = s.faulted) := by
  cases i with
  | call nnn =>
    cases h
    rcases s.advancePC.callSubroutine_cases (addrOperand nnn) with ⟨hfull, e⟩ | ⟨hroom, e⟩ <;> rw [e]
    · exact .inr (.inl ⟨hfull, rfl, rfl⟩)
    · exact .inr (.inr (.inl ⟨nnn, _, rfl, hroom, rfl, rfl⟩))
  | ret =>
    cases h
    rcases s.advancePC.popToPC_cases with ⟨rest, w, hstack, e⟩ | ⟨_, e⟩ <;> rw [e]
    · exact .inr (.inr (.inr ⟨w, rfl, hstack, rfl, rfl⟩))
    · exact .inl ⟨rfl, rfl⟩
  | _ => exact .inl ⟨(exec_frame h).parts .stack (by simp [mayChange]), (exec_frame h).parts .faulted (by simp [mayChange])⟩

/-- What an instruction can do to the key-wait: nothing, or LD Vx,K pauses and latches x (R803). -/
theorem exec_wait_cases {i : Instr} {s t : State} (h : exec i s = .next t) :
    (t.paused = s.paused ∧ t.waitReg = s.waitReg) ∨ ∃ x, i = .ldVxK x ∧ t.paused = true ∧ t.waitReg = some x := by
  cases i with
  | ldVxK x => cases h; exact .inr ⟨x, rfl, rfl, rfl⟩
  | _ => exact .inl ((exec_frame h).parts .wait (by simp [mayChange]))

/-- What an instruction can do to the delay timer: nothing, or LD DT,Vx sets it (R901). -/
theorem exec_DT_cases {i : Instr} {s t : State} (h : exec i s = .next t) :
    t.DT = s.DT ∨ ∃ x, i = .ldDTVx x ∧ t.DT = s.readV x := by
  cases i with
  | ldDTVx x => cases h; exact .inr ⟨x, rfl, rfl⟩
  | _ => exact .inl ((exec_frame h).parts .DT (by simp [mayChange]))

/-- What an instruction can do to the sound timer: nothing, or LD ST,Vx sets it (R902). -/
theorem exec_ST_cases {i : Instr} {s t : State} (h : exec i s = .next t) :
    t.ST = s.ST ∨ ∃ x, i = .ldSTVx x ∧ t.ST = s.readV x := by
  cases i with
  | ldSTVx x => cases h; exact .inr ⟨x, rfl, rfl⟩
  | _ => exact .inl ((exec_frame h).parts .ST (by simp [mayChange]))

/-! What one step of the machine can do -/

/-- Entering a `step()` invocation leaves the opcode at PC as it was (R401). -/
@[simp] theorem fetch_enterStep (s : State) (n : Nat) : (s.enterStep n).fetch = s.fetch := by
  obtain ⟨ports, e⟩ := s.enterStep_eq n
  rw [e]; rfl

/-- Entering a `step()` invocation does not halt the core, nor wake it (R400). -/
@[simp] theorem halted_enterStep (s : State) (n : Nat) : (s.enterStep n).halted = s.halted := by
  obtain ⟨ports, e⟩ := s.enterStep_eq n
  rw [e]; rfl

/-- The core runs exactly where it is neither paused nor faulted (R400). -/
theorem halted_eq_false_iff (s : State) : s.halted = false ↔ s.paused = false ∧ s.faulted = none := by
  simp [State.halted]

/-- What one step can do, every field of the state spelled out: nothing while halted, one instruction, the default advance alone on an
unknown opcode, or the end of the tick, whose gap completes a pending wait where an event comes (R407, R410, R805). -/
theorem step_next_cases {s t : State} (h : step s = .next t) : ∃ ports,
    (∃ n, s.stepsLeft = n + 1 ∧ s.halted = true ∧ t = { s with ports := ports, phase := .burst n }) ∨
    (∃ n i, s.stepsLeft = n + 1 ∧ s.halted = false ∧ decode s.fetch = .instr i ∧
      exec i { s with ports := ports, phase := .burst n } = .next t) ∨
    (∃ n why, s.stepsLeft = n + 1 ∧ s.halted = false ∧ decode s.fetch = .unknown why ∧
      t = { s with PC := s.PC + 2#16, ports := ports, phase := .burst n }) ∨
    (s.stepsLeft = 0 ∧ t = { s with
      DT := if s.halted then s.DT else decrement s.DT
      ST := if s.halted then s.ST else decrement s.ST
      ports := ports, phase := .between, keyInput := s.keyInput.tail }) ∨
    (∃ x k later rest, s.stepsLeft = 0 ∧ s.waitReg = some x ∧ s.keyInput = (k :: later) :: rest ∧
      t = { s.writeV x (k.setWidth 8) with
        DT := if s.halted then s.DT else decrement s.DT
        ST := if s.halted then s.ST else decrement s.ST
        ports := ports, phase := .between, paused := false, waitReg := none, keyInput := rest }) := by
  rcases step_cases s with ⟨n, hn, hstep⟩ | ⟨h0, hstep⟩
  · obtain ⟨ports, henter⟩ := s.enterStep_eq n
    have hcases := (s.enterStep n).stepInstruction_cases
    simp only [fetch_enterStep, halted_enterStep, ← hstep, h] at hcases
    rw [henter] at hcases
    rcases hcases with ⟨hh, e⟩ | ⟨i, hh, hd, e⟩ | ⟨why, hh, hd, e⟩
    · cases e; exact ⟨ports, .inl ⟨n, hn, hh, rfl⟩⟩
    · exact ⟨ports, .inr (.inl ⟨n, i, hn, hh, hd, e.symm⟩)⟩
    · cases e; exact ⟨ports, .inr (.inr (.inl ⟨n, why, hn, hh, hd, rfl⟩))⟩
  · rw [h] at hstep
    cases hstep
    obtain ⟨ports, hopen⟩ := s.openTick_eq
    rcases s.openTick.endTick.deliverKeys_cases with ⟨x, k, later, rest, hx, hk, e⟩ | e <;>
      rw [State.endTick_eq, hopen] at *
    · exact ⟨_, .inr (.inr (.inr (.inr ⟨x, k, later, rest, h0, hx, hk, e⟩)))⟩
    · exact ⟨_, .inr (.inr (.inr (.inl ⟨h0, e⟩)))⟩

/-! The rules of single parts: PC, registers, memory, stack, timers, key-wait, fault -/

/-- A skip's two advances as a number (R509). -/
theorem pcMoves_four {s t : State} (h : t.PC = s.PC + 2#16 + 2#16) : PCMoves 4 s t := by
  rw [PCMoves, h, BitVec.add_assoc, BitVec.toNat_add]
  rfl

/-- The instructions that give PC a value of their own, named. -/
theorem setsPC_iff (i : Instr) : setsPC i = true ↔
    (∃ nnn, i = .jp nnn) ∨ (∃ nnn, i = .call nnn) ∨ i = .ret ∨ ∃ nnn, i = .jpV0 nnn := by
  cases i <;> simp [setsPC]

/-- The skip instructions, named. -/
theorem skips_iff (i : Instr) : skips i = true ↔
    (∃ x kk, i = .seImm x kk ∨ i = .sneImm x kk) ∨ (∃ x y, i = .seReg x y ∨ i = .sneReg x y) ∨
      ∃ x, i = .skp x ∨ i = .sknp x := by
  cases i <;> simp [skips]

/-- Settles O34: the instruction's frame gives PC, where it does not set PC itself. -/
theorem pcLeavesTheSequenceOnlyByControlFlow : Obligations.PCLeavesTheSequenceOnlyByControlFlow := by
  intro i s t h hleaves
  cases hset : setsPC i with
  | true =>
    rcases (setsPC_iff i).mp hset with hi | hi | hi | hi
    · exact .inl hi
    · exact .inr (.inl hi)
    · exact .inr (.inr (.inl hi))
    · exact .inr (.inr (.inr (.inl hi)))
  | false =>
    rcases (exec_frame h).pc hset with hpc | ⟨hskip, hpc⟩
    · exact absurd (pcMoves_two hpc) hleaves
    · exact .inr (.inr (.inr (.inr ⟨pcMoves_four hpc, (skips_iff i).mp hskip⟩)))

/-- Settles O46: VF is among the registers the instruction can write; a block reaches it only with all sixteen. -/
theorem vfChangesOnlyAsFlagOrDestination : Obligations.VFChangesOnlyAsFlagOrDestination := by
  intro i s t h hchanged
  have hwrite : MayWrite i s 15#4 := by
    by_contra hno
    exact hchanged ((exec_frame h).regs _ hno)
  rcases hwrite with hdest | ⟨hflag, _⟩ | ⟨x, rfl, hblock⟩
  · exact .inr (.inl hdest)
  · exact .inl hflag
  · have hx := x.isLt
    have h15 : (15#4).toNat = 15 := rfl
    rw [BlockSize, h15] at hblock
    split at hblock
    · have hx15 : x = 15#4 := BitVec.eq_of_toNat_eq (by omega)
      exact .inr (.inr ⟨by rw [hx15], by assumption⟩)
    · omega

/-- Settles O58: the addresses an instruction can store to are those of the statement. -/
theorem onlyBcdAndBlockStoreWriteMemory : Obligations.OnlyBcdAndBlockStoreWriteMemory := by
  intro i s t a h hchanged
  by_contra hno
  exact hchanged ((exec_frame h).mem a hno)

/-- Settles O35: of the cases of the stack, two leave it as it was. -/
theorem stackChangesOnlyByCallAndRet : Obligations.StackChangesOnlyByCallAndRet := by
  intro i s t h hchanged
  rcases exec_stack_cases h with ⟨hsame, _⟩ | ⟨_, hsame, _⟩ | ⟨nnn, w, hi, _, hpush, _⟩ | ⟨w, hi, hpop, hpc, _⟩
  · exact absurd hsame hchanged
  · exact absurd hsame hchanged
  · exact .inl ⟨nnn, w, hi, hpush⟩
  · exact .inr ⟨w, hi, hpop, hpc⟩

/-- Settles O20: inside a burst a step is an instruction, or it leaves both timers alone. -/
theorem timersChangeInABurstOnlyByTheirStores : Obligations.TimersChangeInABurstOnlyByTheirStores := by
  intro s t n hn h
  obtain ⟨ports, ⟨_, _, _, rfl⟩ | ⟨m, i, _, _, hd, hexec⟩ | ⟨_, _, _, _, _, rfl⟩ | ⟨h0, _⟩ | ⟨_, _, _, _, h0, _⟩⟩ :=
    step_next_cases h
  · exact ⟨.inl rfl, .inl rfl⟩
  · rw [hd]
    constructor
    · rcases exec_DT_cases hexec with hsame | ⟨x, rfl, hx⟩
      · exact .inl hsame
      · exact .inr ⟨x, rfl, hx⟩
    · rcases exec_ST_cases hexec with hsame | ⟨x, rfl, hx⟩
      · exact .inl hsame
      · exact .inr ⟨x, rfl, hx⟩
  · exact ⟨.inl rfl, .inl rfl⟩
  · omega
  · omega

/-- What a step can do to the pause: nothing, LD Vx,K sets it, or the gap after a tick completes the wait (R803, R805). -/
theorem step_paused_cases {s t : State} (h : step s = .next t) :
    t.paused = s.paused ∨
    (∃ n x, s.stepsLeft = n + 1 ∧ decode s.fetch = .instr (.ldVxK x) ∧ t.paused = true ∧ t.waitReg = some x) ∨
    (t.paused = false ∧ s.stepsLeft = 0 ∧ ∃ x k later rest, s.waitReg = some x ∧ s.keyInput = (k :: later) :: rest ∧
      t.readV x = k.setWidth 8 ∧ t.PC = s.PC) := by
  obtain ⟨ports, ⟨_, _, _, rfl⟩ | ⟨n, i, hn, _, hd, hexec⟩ | ⟨_, _, _, _, _, rfl⟩ | ⟨_, rfl⟩ |
    ⟨x, k, later, rest, h0, hx, hk, rfl⟩⟩ := step_next_cases h
  · exact .inl rfl
  · rcases exec_wait_cases hexec with ⟨hsame, _⟩ | ⟨x, rfl, hp, hx⟩
    · exact .inl hsame
    · exact .inr (.inl ⟨n, x, hn, hd, hp, hx⟩)
  · exact .inl rfl
  · exact .inl rfl
  · have hread : (s.writeV x (k.setWidth 8)).readV x = k.setWidth 8 := by rw [State.readV_writeV, if_pos rfl]
    exact .inr (.inr ⟨rfl, h0, x, k, later, rest, hx, hk, hread, rfl⟩)

/-- Settles O23: of what a step can do to the pause, one case sets it and one clears it. -/
theorem pausedChangesOnlyByKeyWaitAndKey : Obligations.PausedChangesOnlyByKeyWaitAndKey := by
  intro s t h
  rcases step_paused_cases h with
    hsame | ⟨n, x, hn, hd, hp, hx⟩ | ⟨hp, h0, x, k, later, rest, hx, hk, hread, hpc⟩
  · rw [hsame]
    exact ⟨fun hs hs' => by simp [hs] at hs', fun hs hs' => by simp [hs] at hs'⟩
  · exact ⟨fun _ _ => ⟨n, x, hn, hd, hx⟩, fun _ hp' => by simp [hp] at hp'⟩
  · refine ⟨fun _ hp' => by simp [hp] at hp', fun _ _ => ⟨h0, x, k, later, rest, hx, hk, ?_, hpc⟩⟩
    rw [hread, BitVec.toNat_setWidth_of_le (by decide)]

/-- What a step of a halted core can do: the ports, the phase and the keyboard's input move on, and a gap completes a pending wait. -/
theorem halted_step_cases {s t : State} (h : step s = .next t) (hh : s.halted = true) : ∃ ports phase keyInput,
    t = { s with ports := ports, phase := phase, keyInput := keyInput } ∨
    ∃ x k, s.waitReg = some x ∧ t = { s.writeV x k with
      ports := ports, phase := phase, keyInput := keyInput, paused := false, waitReg := none } := by
  obtain ⟨ports, ⟨_, _, _, e⟩ | ⟨_, _, _, hruns, _⟩ | ⟨_, _, _, hruns, _⟩ | ⟨_, e⟩ | ⟨x, k, _, _, _, hx, _, e⟩⟩ :=
    step_next_cases h
  · exact ⟨ports, _, _, .inl e⟩
  · simp [hh] at hruns
  · simp [hh] at hruns
  · rw [if_pos hh, if_pos hh] at e
    exact ⟨ports, _, _, .inl e⟩
  · rw [if_pos hh, if_pos hh] at e
    exact ⟨ports, _, _, .inr ⟨x, _, hx, e⟩⟩

/-- With an unbounded stack no step sets the fault (R121, D5). -/
theorem step_keeps_unfaulted {s t : State} (h : step s = .next t) (hdepth : s.params.stackDepth = none)
    (hs : s.faulted = none) : t.faulted = none := by
  obtain ⟨ports, ⟨_, _, _, rfl⟩ | ⟨n, i, _, _, _, hexec⟩ | ⟨_, _, _, _, _, rfl⟩ | ⟨_, rfl⟩ | ⟨_, _, _, _, _, _, _, rfl⟩⟩ :=
    step_next_cases h
  · exact hs
  · rcases exec_stack_cases hexec with ⟨_, hsame⟩ | ⟨hfull, _, _⟩ | ⟨_, _, _, _, _, hsame⟩ | ⟨_, _, _, _, hsame⟩
    · exact hsame.trans hs
    · exact absurd (hdepth.symm.trans ((stackFull_iff _).mp hfull)) nofun
    · exact hsame.trans hs
    · exact hsame.trans hs
  · exact hs
  · exact hs
  · exact hs

/-- Settles O36: a faulted core is halted, and an unbounded stack is never full. -/
theorem stackOverflowIsSticky : Obligations.StackOverflowIsSticky := by
  intro s t h
  refine ⟨fun hfault => ?_, step_keeps_unfaulted h⟩
  have hh : s.halted = true := by simp [State.halted, Option.isSome_iff_ne_none.mpr hfault]
  obtain ⟨ports, phase, keyInput, rfl | ⟨x, k, hx, rfl⟩⟩ := halted_step_cases h hh
  · exact ⟨rfl, rfl, rfl, rfl, rfl, rfl, fun _ => rfl, rfl,
      fun _ => ⟨fun _ _ => rfl, fun _ => rfl, rfl, rfl, rfl, rfl, rfl, rfl, rfl, rfl⟩, fun _ _ _ _ => rfl⟩
  · refine ⟨rfl, rfl, rfl, rfl, rfl, rfl, fun _ => rfl, rfl, fun hnone => ?_, fun x' hx' => ?_⟩
    · exact absurd (hnone.symm.trans hx) nofun
    · cases hx.symm.trans hx'
      exact keepsRegsBut_writeV (fun _ => rfl) x k

/-! The invariant -/

/-- The stack's clause of the invariant: never more entries than `STACK_DEPTH`, and no fault without a full stack (R108, R121). -/
theorem stackWithinDepth_iff (s : State) : s.stackWithinDepth = true ↔
    (∀ depth, s.params.stackDepth = some depth → s.stack.length ≤ depth) ∧ (s.faulted ≠ none → s.stackFull = true) := by
  unfold State.stackWithinDepth State.stackFull
  cases s.params.stackDepth with
  | none => simp
  | some depth => cases s.faulted <;> simp

/-- An instruction run on a core without a fault keeps the stack within its depth (R503). -/
theorem exec_keeps_stackWithinDepth {i : Instr} {s t : State} (h : exec i s = .next t) (hfault : s.faulted = none)
    (hs : s.stackWithinDepth = true) : t.stackWithinDepth = true := by
  rw [stackWithinDepth_iff] at hs ⊢
  obtain ⟨hle, -⟩ := hs
  have hparams := (exec_surroundings i s t h).params
  rw [hparams]
  rcases exec_stack_cases h with
    ⟨hsame, hf⟩ | ⟨hfull, hsame, _⟩ | ⟨_, _, _, hroom, hpush, hf⟩ | ⟨w, _, hpop, _, hf⟩
  · exact ⟨by rwa [hsame], fun hne => absurd (hf.trans hfault) hne⟩
  · rw [stackFull_iff] at hfull
    exact ⟨by rwa [hsame], fun _ => (stackFull_iff t).mpr (by rw [hparams, hsame, hfull])⟩
  · refine ⟨fun depth hdepth => ?_, fun hne => absurd (hf.trans hfault) hne⟩
    have hne : s.stack.length ≠ depth := by
      rintro rfl
      simp [(stackFull_iff s).mpr hdepth] at hroom
    have hlt : s.stack.length < depth := lt_of_le_of_ne (hle depth hdepth) hne
    rw [hpush, List.length_append]
    exact hlt
  · refine ⟨fun depth hdepth => ?_, fun hne => absurd (hf.trans hfault) hne⟩
    have hlen : s.stack.length = t.stack.length + 1 := by rw [hpop, List.length_append]; rfl
    have := hle depth hdepth
    omega

/-- An instruction run on a core without a fault keeps the invariant. -/
theorem exec_keeps_inv {i : Instr} {s t : State} (h : exec i s = .next t) (hfault : s.faulted = none) (hs : s.Inv) :
    t.Inv := by
  obtain ⟨hmem, hwait, hstack, hburst⟩ := hs
  obtain ⟨_, hdriver, hphase, _⟩ := exec_surroundings i s t h
  refine ⟨exec_mem_wf i s t h hmem, ?_, exec_keeps_stackWithinDepth h hfault hstack, ?_⟩
  · rcases exec_wait_cases h with ⟨hp, hx⟩ | ⟨x, _, hp, hx⟩
    · rw [State.waitMatchesPause, hp, hx]; exact hwait
    · rw [State.waitMatchesPause, hp, hx]; rfl
  · rw [State.burstWithinTick, hphase, hdriver]; exact hburst

/-- The steps left after a `step()` invocation are fewer than a whole burst (R411). -/
theorem lt_cyclesPerTick_of_stepsLeft {s : State} {n : Nat} (hburst : s.burstWithinTick = true)
    (hn : s.stepsLeft = n + 1) : n < s.driver.cyclesPerTick := by
  unfold State.stepsLeft at hn
  unfold State.burstWithinTick at hburst
  cases hphase : s.phase with
  | between => rw [hphase] at hn; dsimp only at hn; omega
  | burst m => rw [hphase] at hn hburst; simp only [decide_eq_true_eq] at hn hburst; omega

/-- Inside the burst, with a step fewer left, the invariant holds as before. -/
theorem burst_keeps_inv {s : State} {n : Nat} (hs : s.Inv) (hn : s.stepsLeft = n + 1) (ports : List PortOp) :
    State.Inv { s with ports := ports, phase := .burst n } := by
  obtain ⟨hmem, hwait, hstack, hburst⟩ := hs
  have hlt := lt_cyclesPerTick_of_stepsLeft hburst hn
  exact ⟨hmem, hwait, hstack, decide_eq_true hlt⟩

/-- Settles O4: an instruction runs only without a fault; a completed wait clears the pause and the latch together (R805). -/
theorem everyStepKeepsInvariant : Obligations.EveryStepKeepsInvariant := by
  intro s t hs h
  obtain ⟨ports, ⟨_, hn, _, rfl⟩ | ⟨n, i, hn, hh, _, hexec⟩ | ⟨_, _, hn, _, _, rfl⟩ | ⟨_, rfl⟩ |
    ⟨_, _, _, _, _, _, _, rfl⟩⟩ := step_next_cases h
  · exact burst_keeps_inv hs hn ports
  · exact exec_keeps_inv hexec ((halted_eq_false_iff s).mp hh).2 (burst_keeps_inv hs hn ports)
  · exact burst_keeps_inv hs hn ports
  · obtain ⟨hmem, hwait, hstack, _⟩ := hs
    exact ⟨hmem, hwait, hstack, rfl⟩
  · obtain ⟨hmem, _, hstack, _⟩ := hs
    exact ⟨hmem, rfl, hstack, rfl⟩

/-! Reset -/

/-- Settles O3: reset memory is canonical, and no wait, fault or burst stands at reset. -/
theorem resetSatisfiesInvariant : Obligations.ResetSatisfiesInvariant := ⟨Memory.reset_wf, rfl, rfl, rfl⟩

/-- Reset memory reads as its reset contents (R130). -/
theorem reset_readMem {a : Nat} (ha : a < memSize) : State.reset.readMem a = Memory.unlisted a :=
  congrArg Memory.unlisted (Nat.mod_eq_of_lt ha)

/-- Settles O1: memory is the font and zeros above it, the other fields by the definition of `State.reset`. -/
theorem resetHoldsTheTable : Obligations.ResetHoldsTheTable := by
  refine ⟨fun x => Vector.getElem_replicate x.isLt, rfl, rfl, rfl, rfl, rfl, rfl, rfl, rfl, by decide, fun a ha ha' => ?_⟩
  rw [reset_readMem ha', unlisted_eq_zero_of_ge ha]

/-! CALL and the timer instructions -/

/-- An address operand as a number (R303). -/
theorem addrOperand_toNat (nnn : Addr) : (addrOperand nnn).toNat = nnn.toNat := BitVec.toNat_setWidth_of_le (by decide)

/-- Settles O29: the two cases of a call, told apart by the full stack. -/
theorem callPushesOrFaults : Obligations.CallPushesOrFaults := by
  intro nnn s
  have hexec : exec (.call nnn) s = .next (s.advancePC.callSubroutine (addrOperand nnn)) := rfl
  rcases s.advancePC.callSubroutine_cases (addrOperand nnn) with ⟨hfull, e⟩ | ⟨hroom, e⟩ <;> rw [e] at hexec
  · refine ⟨_, hexec, fun _ => ⟨rfl, pcMoves_two rfl, fun _ _ => rfl, fun _ => rfl, keepsPartsBut_of_exec hexec ?_⟩,
      fun hne => absurd ((stackFull_iff _).mp hfull) hne⟩
    intro p hp
    cases p with
    | faulted => simp at hp
    | wait => exact ⟨rfl, rfl⟩
    | _ => rfl
  · refine ⟨_, hexec, fun hdepth => ?_, fun _ => ⟨addrOperand_toNat nnn,
      ⟨fun _ _ => rfl, fun _ => rfl, keepsPartsBut_of_exec hexec ?_⟩, s.PC + 2#16, rfl, pcMoves_two (t := s.advancePC) rfl⟩⟩
    · have hfull : s.advancePC.stackFull = true := (stackFull_iff _).mpr hdepth
      simp [hfull] at hroom
    · intro p hp
      cases p with
      | stack => simp at hp
      | wait => exact ⟨rfl, rfl⟩
      | _ => rfl

/-- Settles O51: LD DT,Vx by its frame, and DT by its definition. -/
theorem ldDTVxSetsDelayTimer : Obligations.LdDTVxSetsDelayTimer := by
  intro x s
  refine ⟨_, rfl, rfl, straight_of_exec (i := .ldDTVx x) rfl rfl rfl ?_ ?_⟩
  · simp [MayWrite, destination, writesFlag]
  · simp [MayStore]

/-- Settles O52: each by its frame, and what it sets by its definition. -/
theorem ldVxDTReadsAndLdSTVxSets : Obligations.LdVxDTReadsAndLdSTVxSets := by
  intro x s
  refine ⟨_, _, rfl, rfl, ?_, straight_of_exec (i := .ldVxDT x) rfl rfl rfl ?_ ?_, rfl,
    straight_of_exec (i := .ldSTVx x) rfl rfl rfl ?_ ?_⟩
  · rw [State.readV_writeV, if_pos rfl]
  · simp [MayWrite, destination, writesFlag]
  · simp [MayStore]
  · simp [MayWrite, destination, writesFlag]
  · simp [MayStore]

end Sys2Proof.Proofs

/-! PROOFS. The family of 20_memory.md: a read gives the latest write (R203, R208), the fetch (R204, R401), the memory operations LD B,
LD [I],Vx and LD Vx,[I] (R906 to R908), and the sprite that DRW reads from memory (R711). -/

namespace Sys2Proof.Proofs

open Sys2Proof Sys2Proof.Machine Sys2Proof.Claims

/-! Reading, writing and fetching -/

/-- Settles O57: the law of a read after a write, at the same index and at another. -/
theorem readGivesTheLatestWrite : Obligations.ReadGivesTheLatestWrite := by
  intro s a a' b
  rw [State.readMem_writeMem]
  exact ⟨fun h => if_pos h, fun h => if_neg h⟩

/-- Reducing an address beforehand changes no read (R203, D2). -/
theorem readMem_mod (s : State) (a : Nat) : s.readMem (a % 4096) = s.readMem a :=
  congrArg (Memory.lookup s.mem) (Nat.mod_mod a 4096)

/-- The opcode as a number: the byte at PC is the high one (R204, R401). -/
theorem fetch_toNat (s : State) :
    s.fetch.toNat = (s.readMem s.PC.toNat).toNat * 256 + (s.readMem (s.PC.toNat + 1)).toNat :=
  wordOfBytes_toNat _ _

/-- Settles O10: the fetch as two reads; the store at PC + 1 leaves the byte at PC alone, also where PC + 1 wraps. -/
theorem fetchIsBigEndianAndSeesStores : Obligations.FetchIsBigEndianAndSeesStores := by
  intro s
  refine ⟨by rw [fetch_toNat, readMem_mod, readMem_mod], fun high low => ?_⟩
  have hne : memIndex (s.PC.toNat + 1) ≠ memIndex s.PC.toNat :=
    memIndex_ne s.PC.toNat 1 0 (by decide) (by decide) (by decide)
  simp [fetch_toNat, hne]

/-! The memory operations -/

/-- PC and the parts of an instruction that makes the default advance alone (R404). -/
theorem advances_of_exec {i : Instr} {s t : State} (h : exec i s = .next t) (hset : setsPC i = false)
    (hskip : skips i = false) : PCMoves 2 s t ∧ KeepsPartsBut (mayChange i) s t := by
  have hframe := exec_frame h
  exact ⟨pcMoves_two ((hframe.pc hset).resolve_right (by simp [hskip])), keepsPartsBut_of_exec h hframe.parts⟩

/-- The bytes of the BCD stores, hundreds first (R906, R205). -/
theorem readMem_storeBcd (s : State) (v : Byte) (k : Nat) (hk : k < 3) :
    (s.storeBcd v).readMem (s.I.toNat + k) = [bcdHundreds v, bcdTens v, bcdOnes v][k] :=
  Memory.read_writeBytes [bcdHundreds v, bcdTens v, bcdOnes v] s.mem s.I.toNat k hk (by simp [memSize])

theorem bcdHundreds_toNat (v : Byte) : (bcdHundreds v).toNat = v.toNat / 100 :=
  Nat.mod_eq_of_lt (by omega)

theorem bcdTens_toNat (v : Byte) : (bcdTens v).toNat = v.toNat / 10 % 10 :=
  Nat.mod_eq_of_lt (by omega)

theorem bcdOnes_toNat (v : Byte) : (bcdOnes v).toNat = v.toNat % 10 :=
  Nat.mod_eq_of_lt (by omega)

/-- Settles O54: the three bytes by the law of a byte sequence's write, all else by the instruction's frame. -/
theorem ldBStoresThreeDigits : Obligations.LdBStoresThreeDigits := by
  intro x s
  have hexec : exec (.ldB x) s = .next (s.advancePC.storeBcd (s.readV x)) := rfl
  have hdigit := readMem_storeBcd s.advancePC (s.readV x)
  obtain ⟨hpc, hparts⟩ := advances_of_exec hexec rfl rfl
  refine ⟨_, hexec, ?_, ?_, ?_, fun a ha => (exec_frame hexec).mem a ?_, hpc,
    fun y _ => (exec_frame hexec).regs y ?_, hparts⟩
  · exact (congrArg BitVec.toNat (hdigit 0 (by decide))).trans (bcdHundreds_toNat _)
  · exact (congrArg BitVec.toNat (hdigit 1 (by decide))).trans (bcdTens_toNat _)
  · exact (congrArg BitVec.toNat (hdigit 2 (by decide))).trans (bcdOnes_toNat _)
  · simpa [MayStore] using ha
  · simp [MayWrite, destination, writesFlag]

/-- The bytes of the block store, V0 first (R907, R205). -/
theorem readMem_storeBlock (s : State) (n : Nat) (hn : n ≤ 16) (k : Reg) (hk : k.toNat < n) :
    (s.storeBlock n).readMem (s.I.toNat + k.toNat) = s.readV k := by
  have hlen : (s.firstRegs n).length ≤ memSize := by rw [State.firstRegs_length, memSize]; omega
  have hread := Memory.read_writeBytes (s.firstRegs n) s.mem s.I.toNat k.toNat (by rwa [State.firstRegs_length]) hlen
  rw [State.storeBlock_eq]
  exact hread.trans (by simp [State.firstRegs])

/-- Settles O55: the block by the law of the block store, all else by the instruction's frame. -/
theorem ldMemVxStoresTheBlock : Obligations.LdMemVxStoresTheBlock := by
  intro x s
  have hexec : exec (.ldMemVx x) s = .next (s.advancePC.storeBlock (s.blockCount x)) := rfl
  obtain ⟨hpc, hparts⟩ := advances_of_exec hexec rfl rfl
  refine ⟨_, hexec, fun k hk => ?_, fun a ha => (exec_frame hexec).mem a ?_, hpc,
    fun y _ => (exec_frame hexec).regs y ?_, hparts⟩
  · rw [← blockCount_eq_blockSize] at hk
    exact readMem_storeBlock s.advancePC _ (s.blockCount_le x) k hk
  · simpa [MayStore] using ha
  · simp [MayWrite, destination, writesFlag]

/-- Settles O56: the registers of the block by the law of the block load, all else by the instruction's frame. -/
theorem ldVxMemLoadsTheBlock : Obligations.LdVxMemLoadsTheBlock := by
  intro x s
  have hexec : exec (.ldVxMem x) s = .next (s.advancePC.loadBlock (s.blockCount x)) := rfl
  obtain ⟨hpc, hparts⟩ := advances_of_exec hexec rfl rfl
  obtain ⟨-, hread⟩ := s.advancePC.loadBlock_spec (s.blockCount x) (s.blockCount_le x)
  refine ⟨_, hexec, fun k hk => ?_, fun k hk => (exec_frame hexec).regs k ?_, hpc,
    fun a => (exec_frame hexec).mem a ?_, hparts⟩
  · rw [← blockCount_eq_blockSize] at hk
    rw [hread k, if_pos hk]
    rfl
  · simpa [MayWrite, destination, writesFlag] using hk
  · simp [MayStore]

/-! The sprite of DRW -/

/-- `t` is `s` with exactly the pixels of `P` inverted; VF is 1 where one of them was set, and otherwise as in `s`. Memory is kept with it,
since a sprite's later rows are read after its earlier ones are drawn (R711). -/
structure Inverts (P : Fin 64 → Fin 32 → Prop) (s t : State) : Prop where
  mem : t.mem = s.mem
  inside : ∀ c r, P c r → Framebuffer.pixel t.fb c r = !(Framebuffer.pixel s.fb c r)
  outside : ∀ c r, ¬ P c r → Framebuffer.pixel t.fb c r = Framebuffer.pixel s.fb c r
  collision : ∀ c r, P c r → Framebuffer.pixel s.fb c r = true → t.readV VF = 1#8
  noCollision : (∀ c r, P c r → Framebuffer.pixel s.fb c r = false) → t.readV VF = s.readV VF

namespace Inverts

variable {P Q : Fin 64 → Fin 32 → Prop} {s t u : State}

/-- Nothing inverted is nothing changed. -/
theorem refl (hP : ∀ c r, ¬ P c r) (s : State) : Inverts P s s :=
  ⟨rfl, fun c r h => absurd h (hP c r), fun _ _ _ => rfl, fun c r h => absurd h (hP c r), fun _ => rfl⟩

/-- The same pixels, described otherwise. -/
theorem congr (h : Inverts P s t) (hPQ : ∀ c r, P c r ↔ Q c r) : Inverts Q s t := by
  have e : P = Q := funext fun c => funext fun r => propext (hPQ c r)
  exact e ▸ h

/-- Two inversions of pixels apart from each other are one inversion of both: a pixel of the second is met as it was before the first. -/
theorem trans (h1 : Inverts P s t) (h2 : Inverts Q t u) (hdisj : ∀ c r, P c r → ¬ Q c r) :
    Inverts (fun c r => P c r ∨ Q c r) s u where
  mem := h2.mem.trans h1.mem
  inside c r h := by
    rcases h with hP | hQ
    · rw [h2.outside c r (hdisj c r hP), h1.inside c r hP]
    · rw [h2.inside c r hQ, h1.outside c r fun hP => hdisj c r hP hQ]
  outside c r h := by
    rw [not_or] at h
    rw [h2.outside c r h.2, h1.outside c r h.1]
  collision c r h hset := by
    rcases h with hP | hQ
    · by_cases hlater : ∀ c' r', Q c' r' → Framebuffer.pixel t.fb c' r' = false
      · rw [h2.noCollision hlater, h1.collision c r hP hset]
      · push Not at hlater
        obtain ⟨c', r', hQ, hset'⟩ := hlater
        exact h2.collision c' r' hQ (Bool.eq_true_of_not_eq_false hset')
    · exact h2.collision c r hQ (by rw [h1.outside c r fun hP => hdisj c r hP hQ, hset])
  noCollision h := by
    have hfirst := h1.noCollision fun c r hP => h c r (.inl hP)
    rw [← hfirst]
    refine h2.noCollision fun c r hQ => ?_
    rw [h1.outside c r fun hP => hdisj c r hP hQ, h c r (.inr hQ)]

/-- A loop whose rounds invert pixels apart from each other inverts all of them. -/
theorem foldl_range {f : State → Nat → State} {R : Nat → Fin 64 → Fin 32 → Prop} (s : State) (n : Nat)
    (hround : ∀ k < n, ∀ t : State, t.mem = s.mem → Inverts (R k) t (f t k))
    (hdisj : ∀ j k, j < n → k < n → ∀ c r, R j c r → R k c r → j = k) :
    Inverts (fun c r => ∃ k < n, R k c r) s ((List.range n).foldl f s) := by
  induction n with
  | zero => exact refl (by simp) s
  | succ n ih =>
    have hbefore := ih (fun k hk => hround k (by omega)) fun j k hj hk => hdisj j k (by omega) (by omega)
    have hlast := hround n (by omega) _ hbefore.mem
    rw [List.range_succ, List.foldl_concat]
    refine (hbefore.trans hlast fun c r ⟨k, hk, hR⟩ hRn => ?_).congr fun c r => Nat.exists_lt_succ_right.symm
    have := hdisj k n (by omega) (by omega) c r hR hRn
    omega

end Inverts

/-- The framebuffer after one toggle of a draw, with or without a collision (R711). -/
theorem fb_drawPixel (s : State) (x y : Coord) : (s.drawPixel x y).fb = Framebuffer.toggle s.fb x.toNat y.toNat := by
  unfold State.drawPixel
  split <;> rfl

/-- VF after one toggle of a draw: 1 where the pixel was set (R711). -/
theorem readV_VF_drawPixel (s : State) (x y : Coord) :
    (s.drawPixel x y).readV VF = if s.toggleErases x y = true then 1#8 else s.readV VF := by
  unfold State.drawPixel
  split
  · rw [State.readV_writeV, if_pos rfl]
  · rfl

/-- One toggle inverts the pixel its coordinates wrap to (R701, R711). -/
theorem drawPixel_inverts (s : State) (x y : Coord) :
    Inverts (fun c r => column x.toNat = c ∧ row y.toNat = r) s (s.drawPixel x y) := by
  refine ⟨?_, fun c r h => ?_, fun c r h => ?_, ?_, fun h => ?_⟩
  · obtain ⟨_, _, _, e⟩ := s.drawPixel_reaches x y
    rw [e]
    rfl
  · rw [fb_drawPixel, Framebuffer.pixel_toggle, if_pos h]
  · rw [fb_drawPixel, Framebuffer.pixel_toggle, if_neg h]
  · rintro _ _ ⟨rfl, rfl⟩ hset
    exact (readV_VF_drawPixel s x y).trans (if_pos hset)
  · have hclear : ¬ s.toggleErases x y = true := Bool.eq_false_iff.mp (h _ _ ⟨rfl, rfl⟩)
    rw [readV_VF_drawPixel, if_neg hclear]

/-- The pixels of one sprite row: those of its 1 bits, from `px` to the right (R711). -/
def RowCovers (px : Byte) (y : Coord) (bits : Byte) (c : Fin 64) (r : Fin 32) : Prop :=
  ∃ dc < 8, spriteBit bits dc = true ∧ column (pixelCoord px dc).toNat = c ∧ row y.toNat = r

/-- The column of a sprite's pixel as a number (R701, R711). -/
theorem column_pixelCoord (px : Byte) {dc : Nat} (h : dc < 256) :
    (column (pixelCoord px dc).toNat : Nat) = (px.toNat + dc) % 64 := by
  rw [column_natCast, pixelCoord_toNat px dc h]

/-- The row of a sprite's pixel as a number (R701, R711). -/
theorem row_pixelCoord (py : Byte) {dr : Nat} (h : dr < 256) :
    (row (pixelCoord py dr).toNat : Nat) = (py.toNat + dr) % 32 := by
  rw [row_natCast, pixelCoord_toNat py dr h]

/-- Drawing one row: its eight columns are apart from each other (R711). -/
theorem drawRow_inverts (s : State) (px : Byte) (y : Coord) (bits : Byte) :
    Inverts (RowCovers px y bits) s (s.drawRow px y bits) := by
  refine Inverts.foldl_range s 8 (fun dc _ t _ => ?_) fun j k hj hk c r hjc hkc => ?_
  · split
    · rename_i hbit
      exact (drawPixel_inverts t (pixelCoord px dc) y).congr fun c r => (and_iff_right hbit).symm
    · rename_i hbit
      exact Inverts.refl (fun c r h => hbit h.1) t
  · obtain ⟨-, hcol, -⟩ := hjc
    obtain ⟨-, hcol', -⟩ := hkc
    have hmod := congrArg Fin.val (hcol.trans hcol'.symm)
    rw [column_pixelCoord px (by omega), column_pixelCoord px (by omega)] at hmod
    omega

/-- Drawing the rows: no two of at most 32 share a row of the display, and each is read from memory as it stood (R711). -/
theorem drawRows_inverts (s : State) (px py : Byte) (base n : Nat) (hn : n ≤ 32) :
    Inverts (fun c r => ∃ dr < n, RowCovers px (pixelCoord py dr) (s.readMem (base + dr)) c r) s
      (s.drawRows px py base n) := by
  refine Inverts.foldl_range s n (fun dr _ t ht => ?_) fun j k hj hk c r hjc hkc => ?_
  · rw [State.readMem_congr ht]
    exact drawRow_inverts t px (pixelCoord py dr) _
  · obtain ⟨_, _, _, _, hrow⟩ := hjc
    obtain ⟨_, _, _, _, hrow'⟩ := hkc
    have hmod := congrArg Fin.val (hrow.trans hrow'.symm)
    rw [row_pixelCoord py (by omega), row_pixelCoord py (by omega)] at hmod
    omega

/-- A sprite bit as a number: bit 7 is the leftmost pixel (R711, GK4). -/
theorem spriteBit_iff (bits : Byte) {dc : Nat} (h : dc < 8) :
    spriteBit bits dc = true ↔ bits.toNat / 2 ^ (7 - dc) % 2 = 1 := by
  rw [spriteBit, BitVec.getMsbD_eq_getLsbD, ← BitVec.testBit_toNat, Nat.testBit_eq_decide_div_mod_eq]
  simp [h]

/-- The sprite of the claims is that of the model's loop, row by row (R711). -/
theorem rowCovers_iff_spriteCovers (s : State) (x y : Reg) (n : Nibble) (c : Fin 64) (r : Fin 32) :
    (∃ dr < n.toNat, RowCovers (s.readV x) (pixelCoord (s.readV y) dr) (s.readMem (s.I.toNat + dr)) c r) ↔
      SpriteCovers s x y n c r := by
  have hcell {dr dc : Nat} (hr : dr < n.toNat) (hc : dc < 8) :
      (spriteBit (s.readMem (s.I.toNat + dr)) dc = true ∧ column (pixelCoord (s.readV x) dc).toNat = c ∧
        row (pixelCoord (s.readV y) dr).toNat = r) ↔
      (((s.readV x).toNat + dc) % 64 = c ∧ ((s.readV y).toNat + dr) % 32 = r ∧
        (s.readMem (s.I.toNat + dr)).toNat / 2 ^ (7 - dc) % 2 = 1) := by
    rw [spriteBit_iff _ hc, Fin.ext_iff, Fin.ext_iff, column_pixelCoord _ (by omega), row_pixelCoord _ (by omega)]
    tauto
  constructor
  · rintro ⟨dr, hr, dc, hc, h⟩
    exact ⟨dr, dc, hr, hc, (hcell hr hc).mp h⟩
  · rintro ⟨dr, dc, hr, hc, h⟩
    exact ⟨dr, hr, dc, hc, (hcell hr hc).mpr h⟩

/-- What DRW inverts: its sprite, from the state with VF reset, whose registers were sampled before (R711, D15). -/
theorem drw_inverts (x y : Reg) (n : Nibble) (s : State) :
    Inverts (SpriteCovers s x y n) (s.advancePC.writeV VF 0#8)
      ((s.advancePC.writeV VF 0#8).drawRows (s.readV x) (s.readV y) s.I.toNat n.toNat) :=
  (drawRows_inverts (s.advancePC.writeV VF 0#8) (s.readV x) (s.readV y) s.I.toNat n.toNat (by omega)).congr
    (rowCovers_iff_spriteCovers s x y n)

/-- Settles O49: the sprite's rows and columns are apart from each other, so each covered pixel is inverted once; all else is the frame. -/
theorem drwInvertsTheSpriteAndSetsCollision : Obligations.DrwInvertsTheSpriteAndSetsCollision := by
  intro x y n s
  have hdraw := drw_inverts x y n s
  refine ⟨_, rfl, fun c r => ⟨hdraw.inside c r, hdraw.outside c r⟩,
    fun ⟨c, r, hcovers, hset⟩ => hdraw.collision c r hcovers hset, fun hclear => ?_,
    straight_of_exec (i := .drw x y n) rfl rfl rfl ?_ ?_⟩
  · exact (hdraw.noCollision hclear).trans (by simp)
  · simp [MayWrite, destination, writesFlag, VF]
  · simp [MayStore]

end Sys2Proof.Proofs

/-! PROOFS. The family of 30_encoding.md: the decoder's two dispatches (R304 to R310), the words each row of R317 decodes from, the unknown
encodings (R311), and the step on one of them. -/

namespace Sys2Proof.Proofs

open Sys2Proof Sys2Proof.Machine Sys2Proof.Claims

/-! Decoding an encoding -/

/-- Group 0x0 on a word of its format (R306). -/
theorem decode_group0 (x : Reg) (kk : Byte) :
    decode (wordXKK 0x0#4 x kk) = .instr (decodeGroup0 (wordXKK 0x0#4 x kk)) := by
  simp [decode]

/-- Group 0x8 on a word of its format (R307). -/
theorem decode_group8 (x y n : BitVec 4) : decode (wordXYN 0x8#4 x y n) = decodeGroup8 (wordXYN 0x8#4 x y n) := by
  simp [decode]

/-- Group 0xE on a word of its format (R308). -/
theorem decode_groupE (x : Reg) (kk : Byte) : decode (wordXKK 0xE#4 x kk) = decodeGroupE (wordXKK 0xE#4 x kk) := by
  simp [decode]

/-- Group 0xF on a word of its format (R309). -/
theorem decode_groupF (x : Reg) (kk : Byte) : decode (wordXKK 0xF#4 x kk) = decodeGroupF (wordXKK 0xF#4 x kk) := by
  simp [decode]

/-- Settles O8: the first dispatch reads the top nibble, the second `kk` or `n`, and neither reads the ignored field. -/
theorem ignoredFieldsChangeNothing : Obligations.IgnoredFieldsChangeNothing := by
  intro x y n
  refine ⟨?_, ?_, ?_, ?_, ?_, ?_⟩
  · simp [decode_group0, decodeGroup0]
  · simp [decode_group0, decodeGroup0]
  · simp [decode]
  · simp [decode]
  · simp [decode_group8, decodeGroup8]
  · simp [decode_group8, decodeGroup8]

/-- Settles O5, group by group of the first dispatch: each field of a format reads back what the encoder put there. -/
theorem decodingAnEncodingGivesItBack : Obligations.DecodingAnEncodingGivesItBack := by
  intro i hwf
  cases i
  case sys nnn =>
    obtain ⟨hcls, hret⟩ : Addr.lowByte nnn ≠ 0xE0#8 ∧ Addr.lowByte nnn ≠ 0xEE#8 := by
      simpa [Instr.wellFormed] using hwf
    simp [encode, decode, decodeGroup0, hcls, hret]
  case cls | ret =>
    simp [encode, decode_group0, decodeGroup0]
  case jp | call | seImm | sneImm | seReg | ldImm | addImm | sneReg | ldI | jpV0 | rnd | drw =>
    simp [encode, decode]
  case ldReg | orReg | andReg | xorReg | addReg | subReg | shr | subnReg | shl =>
    simp [encode, decode_group8, decodeGroup8]
  case skp | sknp =>
    simp [encode, decode_groupE, decodeGroupE]
  case ldVxDT | ldVxK | ldDTVx | ldSTVx | addI | ldF | ldB | ldMemVx | ldVxMem =>
    simp [encode, decode_groupF, decodeGroupF]

/-- Settles O9: ten of the words are the encodings of their instructions; the second dispatch of the other two meets no case. -/
theorem wordsOfEachFamilyDecode : Obligations.WordsOfEachFamilyDecode :=
  have hback := decodingAnEncodingGivesItBack
  ⟨hback (.sys 0x123#12) rfl, hback .cls rfl, hback (.jp 0x200#12) rfl, hback (.seImm 3#4 0x42#8) rfl,
    hback (.ldImm 10#4 0x2B#8) rfl, hback (.addReg 1#4 2#4) rfl, hback (.drw 0#4 1#4 5#4) rfl, hback (.skp 5#4) rfl,
    hback (.ldVxK 3#4) rfl, hback (.ldB 4#4) rfl, rfl, rfl⟩

/-! The words of a row -/

/-- A word is the one of format `NNN` made from its fields (R301, R302). -/
theorem wordNNN_fields (op : Word) : wordNNN op.top op.nnn = op := by
  apply BitVec.eq_of_toNat_eq
  rw [wordNNN_toNat, Word.top_toNat, Word.nnn_toNat]
  omega

/-- A word is the one of format `XKK` made from its fields (R301, R302). -/
theorem wordXKK_fields (op : Word) : wordXKK op.top op.x op.kk = op := by
  apply BitVec.eq_of_toNat_eq
  rw [wordXKK_toNat, Word.top_toNat, Word.x_toNat, Word.kk_toNat]
  omega

/-- A word is the one of format `XYN` made from its fields (R301, R302). -/
theorem wordXYN_fields (op : Word) : wordXYN op.top op.x op.y op.n = op := by
  apply BitVec.eq_of_toNat_eq
  rw [wordXYN_toNat, Word.top_toNat, Word.x_toNat, Word.y_toNat, Word.n_toNat]
  omega

theorem wordXYN_clear_n (a x y n : BitVec 4) : wordXYN a x y n &&& 0xFFF0#16 = wordXYN a x y 0#4 := by
  refine BitVec.eq_of_getLsbD_eq fun i hi => ?_
  interval_cases i <;> simp only [wordXYN, BitVec.getLsbD_and, BitVec.getLsbD_append] <;> simp

theorem wordXYN_clear_y (a x y n : BitVec 4) : wordXYN a x y n &&& 0xFF0F#16 = wordXYN a x 0#4 n := by
  refine BitVec.eq_of_getLsbD_eq fun i hi => ?_
  interval_cases i <;> simp only [wordXYN, BitVec.getLsbD_and, BitVec.getLsbD_append] <;> simp

section
variable {op : Word} {a n : BitVec 4} {kk : Byte}

/-- All bits examined, format `NNN`. -/
theorem examined_nnn (htop : op.top = a) : op &&& ~~~0x0000#16 = wordNNN a op.nnn := by
  rw [← htop, wordNNN_fields]
  exact BitVec.and_allOnes

/-- All bits examined, format `XKK`. -/
theorem examined_xkk (htop : op.top = a) (hkk : op.kk = kk) : op &&& ~~~0x0000#16 = wordXKK a op.x kk := by
  rw [← htop, ← hkk, wordXKK_fields]
  exact BitVec.and_allOnes

/-- All bits examined, format `XYN`. -/
theorem examined_xyn (htop : op.top = a) (hn : op.n = n) : op &&& ~~~0x0000#16 = wordXYN a op.x op.y n := by
  rw [← htop, ← hn, wordXYN_fields]
  exact BitVec.and_allOnes

/-- All bits but those of `x` examined (R306, D7). -/
theorem examined_kk (htop : op.top = a) (hkk : op.kk = kk) : op &&& ~~~0x0F00#16 = wordXKK a 0#4 kk := by
  rw [← htop, ← hkk, ← wordXKK_mask_kk op.top op.x op.kk, wordXKK_fields]
  rfl

/-- All bits but those of `n` examined (R310, D8). -/
theorem examined_xy (htop : op.top = a) : op &&& ~~~0x000F#16 = wordXYN a op.x op.y 0#4 := by
  rw [← htop, ← wordXYN_clear_n op.top op.x op.y op.n, wordXYN_fields]
  rfl

/-- All bits but those of `y` examined (R608, R610, D9). -/
theorem examined_xn (htop : op.top = a) (hn : op.n = n) : op &&& ~~~0x00F0#16 = wordXYN a op.x 0#4 n := by
  rw [← htop, ← hn, ← wordXYN_clear_y op.top op.x op.y op.n, wordXYN_fields]
  rfl

end

/-- The word is one of the instruction's row: it agrees with the encoding in every bit the instruction examines (R306, R310). -/
structure WordOf (op : Word) (i : Instr) : Prop where
  wellFormed : i.wellFormed = true
  examined : op &&& ~~~(ignoredBits i) = encode i

/-- Group 0x0 decodes every word to the instruction of its row (R306). -/
theorem wordOf_decodeGroup0 {op : Word} (htop : op.top = 0x0#4) : WordOf op (decodeGroup0 op) := by
  unfold decodeGroup0
  split
  case isTrue hkk => exact ⟨rfl, examined_kk htop hkk⟩
  case isFalse hcls =>
    split
    case isTrue hkk => exact ⟨rfl, examined_kk htop hkk⟩
    case isFalse hret =>
      have hlow : Addr.lowByte op.nnn = op.kk := by rw [← wordNNN_kk op.top op.nnn, wordNNN_fields]
      exact ⟨by simp [Instr.wellFormed, hlow, hcls, hret], examined_nnn htop⟩

/-- What group 0x8 decodes, it decodes to the instruction of the word's row (R307). -/
theorem wordOf_of_decodeGroup8 {op : Word} {i : Instr} (htop : op.top = 0x8#4) (h : decodeGroup8 op = .instr i) :
    WordOf op i := by
  unfold decodeGroup8 at h
  split at h <;> cases h
  case h_7 hn | h_9 hn => exact ⟨rfl, examined_xn htop hn⟩
  all_goals exact ⟨rfl, examined_xyn htop ‹_›⟩

/-- What group 0xE decodes, it decodes to the instruction of the word's row (R308). -/
theorem wordOf_of_decodeGroupE {op : Word} {i : Instr} (htop : op.top = 0xE#4) (h : decodeGroupE op = .instr i) :
    WordOf op i := by
  unfold decodeGroupE at h
  split at h <;> cases h <;> exact ⟨rfl, examined_xkk htop ‹_›⟩

/-- What group 0xF decodes, it decodes to the instruction of the word's row (R309). -/
theorem wordOf_of_decodeGroupF {op : Word} {i : Instr} (htop : op.top = 0xF#4) (h : decodeGroupF op = .instr i) :
    WordOf op i := by
  unfold decodeGroupF at h
  split at h <;> cases h <;> exact ⟨rfl, examined_xkk htop ‹_›⟩

/-- What the first dispatch can do (R304, R305): hand the word to one of the four groups with a second dispatch, or decode it. -/
theorem decode_cases (op : Word) :
    (op.top = 0x0#4 ∧ decode op = .instr (decodeGroup0 op)) ∨
    (op.top = 0x8#4 ∧ decode op = decodeGroup8 op) ∨
    (op.top = 0xE#4 ∧ decode op = decodeGroupE op) ∨
    (op.top = 0xF#4 ∧ decode op = decodeGroupF op) ∨
    (op.top ∉ [0x0#4, 0x8#4, 0xE#4, 0xF#4] ∧ ∃ i, decode op = .instr i ∧ WordOf op i) := by
  fun_cases decode op
  case case1 htop => exact .inl ⟨htop, rfl⟩
  case case9 htop => exact .inr (.inl ⟨htop, rfl⟩)
  case case15 htop => exact .inr (.inr (.inl ⟨htop, rfl⟩))
  case case16 =>
    have htop : op.top = 0xF#4 := by
      simp only [imp_false, ← BitVec.toNat_inj, BitVec.toNat_ofNat] at *
      omega
    exact .inr (.inr (.inr (.inl ⟨htop, rfl⟩)))
  case case2 htop | case3 htop | case11 htop | case12 htop =>
    exact .inr (.inr (.inr (.inr ⟨by simp [htop], _, rfl, rfl, examined_nnn htop⟩)))
  case case4 htop | case5 htop | case7 htop | case8 htop | case13 htop =>
    exact .inr (.inr (.inr (.inr ⟨by simp [htop], _, rfl, rfl, examined_xkk htop rfl⟩)))
  case case6 htop | case10 htop =>
    exact .inr (.inr (.inr (.inr ⟨by simp [htop], _, rfl, rfl, examined_xy htop⟩)))
  case case14 htop =>
    exact .inr (.inr (.inr (.inr ⟨by simp [htop], _, rfl, rfl, examined_xyn htop rfl⟩)))

/-- A word decodes to no other instruction than that of its row. -/
theorem wordOf_of_decode {op : Word} {i : Instr} (h : decode op = .instr i) : WordOf op i := by
  rcases decode_cases op with ⟨htop, e⟩ | ⟨htop, e⟩ | ⟨htop, e⟩ | ⟨htop, e⟩ | ⟨_, j, e, hword⟩ <;> rw [h] at e
  · cases e
    exact wordOf_decodeGroup0 htop
  · exact wordOf_of_decodeGroup8 htop e.symm
  · exact wordOf_of_decodeGroupE htop e.symm
  · exact wordOf_of_decodeGroupF htop e.symm
  · cases e
    exact hword

open Laws.RowSelects in
/-- The encoder's word of an instruction is selected by the instruction's row (R317). -/
theorem encode_and_rowMask (i : Instr) : encode i &&& rowMask i = rowMatch i := by
  cases i
  exacts [sys _, cls, ret, jp _, call _, seImm _ _, sneImm _ _, seReg _ _, ldImm _ _, addImm _ _, ldReg _ _, orReg _ _,
    andReg _ _, xorReg _ _, addReg _ _, subReg _ _, shr _, subnReg _ _, shl _, sneReg _ _, ldI _, jpV0 _, rnd _ _,
    drw _ _ _, skp _, sknp _, ldVxDT _, ldVxK _, ldDTVx _, ldSTVx _, addI _, ldF _, ldB _, ldMemVx _, ldVxMem _]

/-- No row is selected by a bit that its instruction ignores. -/
theorem examinedBits_and_rowMask (i : Instr) : ~~~(ignoredBits i) &&& rowMask i = rowMask i := by
  cases i <;> dsimp only [ignoredBits, rowMask] <;> decide

/-- Settles O6: the row's mask lies within the examined bits, in which the word and the encoding agree. -/
theorem decodedWordLiesInItsTableRow : Obligations.DecodedWordLiesInItsTableRow := by
  intro op i h
  obtain ⟨hwf, hexamined⟩ := wordOf_of_decode h
  have hmask : op &&& rowMask i = rowMatch i :=
    calc op &&& rowMask i
        = op &&& ~~~(ignoredBits i) &&& rowMask i := by rw [BitVec.and_assoc, examinedBits_and_rowMask]
      _ = encode i &&& rowMask i := by rw [hexamined]
      _ = rowMatch i := encode_and_rowMask i
  exact ⟨hwf, hmask, hexamined⟩

/-! The unknown encodings -/

/-- The selectors of group 0x8 that name no operation (R307, R311). -/
theorem decodeGroup8_unknown_iff (op : Word) : (∃ why, decodeGroup8 op = .unknown why) ↔
    op.toNat % 16 ∈ [0x8, 0x9, 0xA, 0xB, 0xC, 0xD, 0xF] := by
  rw [← Word.n_toNat]
  fun_cases decodeGroup8 op
  case case1 h | case2 h | case3 h | case4 h | case5 h | case6 h | case7 h | case8 h | case9 h => simp [h]
  case case10 =>
    have hn : op.n.toNat ∉ [0x0, 0x1, 0x2, 0x3, 0x4, 0x5, 0x6, 0x7, 0xE] := by simp_all [← BitVec.toNat_inj]
    refine ⟨fun _ => ?_, fun _ => ⟨_, rfl⟩⟩
    simp only [List.mem_cons, List.not_mem_nil, or_false] at hn ⊢
    omega

/-- The sub-opcodes of group 0xE that name no operation (R308, R311). -/
theorem decodeGroupE_unknown_iff (op : Word) : (∃ why, decodeGroupE op = .unknown why) ↔
    op.toNat % 256 ∉ [0x9E, 0xA1] := by
  rw [← Word.kk_toNat]
  fun_cases decodeGroupE op
  case case1 h | case2 h => simp [h]
  case case3 => simp_all [← BitVec.toNat_inj]

/-- The sub-opcodes of group 0xF that name no operation (R309, R311). -/
theorem decodeGroupF_unknown_iff (op : Word) : (∃ why, decodeGroupF op = .unknown why) ↔
    op.toNat % 256 ∉ [0x07, 0x0A, 0x15, 0x18, 0x1E, 0x29, 0x33, 0x55, 0x65] := by
  rw [← Word.kk_toNat]
  fun_cases decodeGroupF op
  case case1 h | case2 h | case3 h | case4 h | case5 h | case6 h | case7 h | case8 h | case9 h => simp [h]
  case case10 => simp_all [← BitVec.toNat_inj]

/-- Settles O7: of the first dispatch's cases only groups 8, E and F can answer an unknown encoding. -/
theorem unknownWordsAreExactlyTheListed : Obligations.UnknownWordsAreExactlyTheListed := by
  intro op
  rw [← Word.top_toNat, ← decodeGroup8_unknown_iff, ← decodeGroupE_unknown_iff, ← decodeGroupF_unknown_iff]
  rcases decode_cases op with ⟨htop, e⟩ | ⟨htop, e⟩ | ⟨htop, e⟩ | ⟨htop, e⟩ | ⟨htop, j, e, _⟩ <;> rw [e]
  · simp [htop]
  · simp [htop]
  · simp [htop]
  · simp [htop]
  · simp_all [← BitVec.toNat_inj]

/-! The step on an unknown opcode -/

/-- A running core's step is the meaning of the opcode at PC, on the state with one invocation fewer left (R402 to R407). -/
theorem step_of_running {s : State} {n : Nat} (hn : s.stepsLeft = n + 1) (hp : s.paused = false)
    (hf : s.faulted = none) : step s = (s.enterStep n).runDecoded (decode s.fetch) := by
  have hh : (s.enterStep n).halted = false := (halted_enterStep s n).trans ((halted_eq_false_iff s).mpr ⟨hp, hf⟩)
  simp [step, machineStep, hn, State.stepInstruction, hh]

/-- Entering a `step()` invocation opens the step of the claims (log entries 8 and 10). -/
theorem opensStep_enterStep (s : State) (n : Nat) : OpensStep s n := by
  have henter : s.enterStep n =
      { s with ports := if s.phase = .between then [] else s.ports, phase := .burst n } := by
    unfold State.enterStep State.openTick
    split <;> simp [*, State.beginTick]
  rw [OpensStep, henter]
  exact ⟨⟨fun _ _ => rfl, fun _ => rfl, rfl, rfl, rfl, rfl, rfl, rfl, rfl, rfl⟩, rfl, rfl, rfl, rfl, rfl, rfl, rfl⟩

/-- The default advance alone moves PC and nothing else (R404). -/
theorem straight_advancePC (s : State) : Straight [] [] s s.advancePC :=
  ⟨pcMoves_two rfl, fun _ _ => rfl, fun _ => rfl, fun p _ => same_withVPCMem s _ _ _ p, rfl, rfl, rfl, rfl⟩

/-- Settles O12: the meaning of an unknown opcode is the default advance. -/
theorem unknownOpcodeOnlyAdvances : Obligations.UnknownOpcodeOnlyAdvances := by
  intro s n why hn hp hf hd
  refine ⟨(s.enterStep n).advancePC, ?_, straight_advancePC _, opensStep_enterStep s n⟩
  rw [step_of_running hn hp hf, hd]
  rfl

end Sys2Proof.Proofs

/-! PROOFS. The family of 40_execution_cycle.md: one step of the machine (R400 to R407), the end of a tick (R410, R1011 to R1013), the
steps of a tick together (R411), and the driver's start, stop and tick (R420 to R423). -/

namespace Sys2Proof.Proofs

open Sys2Proof Sys2Proof.Machine Sys2Proof.Claims

/-! One step of the machine -/

/-- The core does nothing exactly where it is paused or faulted (R400). -/
theorem halted_eq_true_iff (s : State) : s.halted = true ↔ s.paused = true ∨ s.faulted ≠ none := by
  simp [State.halted, Option.isSome_iff_ne_none]

/-- The engine's `step()` on a halted core (R400). -/
theorem stepInstruction_of_halted {s : State} (h : s.halted = true) : s.stepInstruction = .next s := by
  rw [State.stepInstruction, if_pos h]

/-- Settles O11: the step of a running core, at a word that decodes to an instruction. -/
theorem stepRunsTheDecodedInstruction : Obligations.StepRunsTheDecodedInstruction := by
  intro s n i hn hp hf hd
  refine ⟨?_, opensStep_enterStep s n⟩
  rw [step_of_running hn hp hf, hd]
  rfl

/-- Settles O13: entering a step leaves the core halted. -/
theorem haltedStepDoesNothing : Obligations.HaltedStepDoesNothing := by
  intro s n hn hhalt
  refine ⟨?_, opensStep_enterStep s n⟩
  rcases step_cases s with ⟨m, hm, hstep⟩ | ⟨h0, _⟩
  · obtain rfl : n = m := by omega
    rw [hstep, stepInstruction_of_halted]
    rw [halted_enterStep, halted_eq_true_iff]
    exact hhalt
  · omega

/-- Settles O26: SYS is the default advance. -/
theorem sysOnlyAdvances : Obligations.SysOnlyAdvances :=
  fun _ s => ⟨s.advancePC, rfl, straight_advancePC s⟩

/-! The end of a tick -/

/-- What the end of a tick makes of a timer (R410, R1011). -/
theorem timerAtTickEnd_toNat (s : State) (timer : Byte) :
    (if s.halted then timer else decrement timer).toNat =
      if s.paused = true ∨ s.faulted ≠ none then timer.toNat else timer.toNat - 1 := by
  simp only [← halted_eq_true_iff]
  split
  · rfl
  · exact decrement_toNat timer

/-- The end of a tick reports the ST it leaves and then requests a render (R1012, R1013, D21). -/
theorem endTick_ports (s : State) :
    s.endTick.ports = s.ports ++ [if s.endTick.ST = 0#8 then .audioStop else .audioPlay, .dispRender] := by
  rw [State.endTick_eq]

/-- Settles O15: of all fields the end of a tick writes four. -/
theorem tickEndUpdatesTimersThenReports : Obligations.TickEndUpdatesTimersThenReports := by
  intro s
  refine ⟨?_, ?_, endTick_ports s, ?_⟩ <;> rw [State.endTick_eq]
  · exact timerAtTickEnd_toNat s s.DT
  · exact timerAtTickEnd_toNat s s.ST
  · refine ⟨rfl, rfl, fun _ _ => rfl, fun _ => rfl, fun p hp => ?_, rfl, rfl, rfl⟩
    cases p with
    | DT | ST | ports => simp at hp
    | wait => exact ⟨rfl, rfl⟩
    | I | stack | faulted | fb | draws => rfl

/-- The gap after a tick moves no timer, and neither PC nor the phase (R805). -/
theorem deliverKeys_frame (s : State) : s.deliverKeys.phase = s.phase ∧ s.deliverKeys.DT = s.DT ∧
    s.deliverKeys.ST = s.ST ∧ s.deliverKeys.PC = s.PC := by
  rcases s.deliverKeys_cases with ⟨_, _, _, _, _, _, e⟩ | e <;> rw [e] <;> exact ⟨rfl, rfl, rfl, rfl⟩

/-- A pending wait is completed by the first event of the gap, and the gap's events are used up (R805, R806). -/
theorem deliverKeys_completes {s : State} {x : Reg} {k : Key} {later : List Key} {rest : List (List Key)}
    (hx : s.waitReg = some x) (hk : s.keyInput = (k :: later) :: rest) :
    (s.deliverKeys.readV x).toNat = k.toNat ∧ s.deliverKeys.paused = false ∧ s.deliverKeys.waitReg = none ∧
      s.deliverKeys.keyInput = rest ∧ KeepsRegsBut [x] s s.deliverKeys := by
  have hdone : s.deliverKeys =
      { s.writeV x (k.setWidth 8) with paused := false, waitReg := none, keyInput := rest } := by
    simp [State.deliverKeys, hk, State.keyDowns_cons, State.keyDown, hx, State.writeV]
  have hread : (s.writeV x (k.setWidth 8)).readV x = k.setWidth 8 := by rw [State.readV_writeV, if_pos rfl]
  rw [hdone]
  refine ⟨(congrArg BitVec.toNat hread).trans ?_, rfl, rfl, rfl, keepsRegsBut_writeV (fun _ => rfl) x _⟩
  exact BitVec.toNat_setWidth_of_le (by decide)

/-- The end of a tick, opened or not: the timers, the record of port operations and the phase alone (R410). -/
theorem endTick_openTick_eq (s : State) : ∃ ports, s.openTick.endTick =
    { s with DT := s.endTick.DT, ST := s.endTick.ST, ports := ports, phase := .between } := by
  obtain ⟨ports, hopen⟩ := s.openTick_eq
  rw [hopen, State.endTick_eq, State.endTick_eq]
  exact ⟨_, rfl⟩

/-- Settles O16: the tick's end moves the timers, and the gap's first event completes the wait. -/
theorem stepWithNoneLeftEndsTheTick : Obligations.StepWithNoneLeftEndsTheTick := by
  intro s h0
  have hstep : step s = .next s.openTick.endTick.deliverKeys := by
    rcases step_cases s with ⟨_, hn, _⟩ | ⟨_, h⟩
    · omega
    · exact h
  refine ⟨_, hstep, rfl, ?_⟩
  obtain ⟨ports, hend⟩ := endTick_openTick_eq s
  generalize s.openTick.endTick = u at hend
  obtain ⟨hphase, hDT, hST, hPC⟩ := deliverKeys_frame u
  subst hend
  refine ⟨hphase, hDT, hST, hPC, fun x k later rest hx hk => ?_⟩
  exact deliverKeys_completes hx hk

/-! The burst of a tick -/

/-- A burst of one more begins with a `step()` (R411). -/
theorem burst_succ {s t : State} (h : s.stepInstruction = .next t) (n : Nat) :
    State.burst (n + 1) s = State.burst n t := by
  rw [State.burst, h]

/-- A whole tick is a burst and its end (R410). -/
theorem advance_of_burst {c : Nat} {s t : State} (h : State.burst c s.beginTick = .next t) :
    State.advance c s = .next t.endTick := by
  rw [State.advance, h]

/-- The rest of a tick is the rest of its burst, its end and the gap after it (R410, R422). -/
theorem finishTick_of_burst {n : Nat} {s t : State} (hp : s.phase = .burst n) (h : State.burst n s = .next t) :
    s.finishTick = .next t.endTick.deliverKeys := by
  simp [State.finishTick, hp, h]

/-- A halted core sits a burst out (R400, R411). -/
theorem burst_of_halted {s : State} (h : s.halted = true) (n : Nat) : State.burst n s = .next s := by
  induction n with
  | zero => rfl
  | succ n ih => rw [burst_succ (stepInstruction_of_halted h), ih]

/-- Settles O18: the burst does nothing, and the tick's end leaves the timers of a halted core alone. -/
theorem haltedTickOnlyReports : Obligations.HaltedTickOnlyReports := by
  intro c s hhalt
  have hh : s.beginTick.halted = true := (halted_eq_true_iff s).mpr hhalt
  refine ⟨_, advance_of_burst (burst_of_halted hh c), ?_⟩
  rw [State.endTick_eq, if_pos hh, if_pos hh]
  exact ⟨⟨fun _ _ => rfl, fun _ => rfl, rfl, rfl, rfl, rfl, rfl, rfl, rfl, rfl⟩, rfl, rfl⟩

/-! Port operations inside a burst -/

/-- No audio and no render call stands in the record of port operations (R413). -/
def NoTickEndOps (s : State) : Prop := ∀ p ∈ s.ports, ¬ EndsTick p

/-- A port operation of another kind joins the record (R430). -/
theorem NoTickEndOps.emit {s : State} (h : NoTickEndOps s) {op : PortOp} (hop : ¬ EndsTick op) :
    NoTickEndOps (s.emit op) := by
  intro p hp
  rcases List.mem_append.mp hp with hp | hp
  · exact h p hp
  · rwa [List.mem_singleton.mp hp]

/-- A skip makes no port operation (R509). -/
theorem NoTickEndOps.skipIf {s : State} (h : NoTickEndOps s) (c : Bool) : NoTickEndOps (s.skipIf c) := by
  rw [State.skipIf_eq]; exact h

/-- Drawing makes no port operation but toggles (R711). -/
theorem NoTickEndOps.drawRows {s : State} (h : NoTickEndOps s) (px py : Byte) (base n : Nat) :
    NoTickEndOps (s.drawRows px py base n) := by
  have hpixel : ∀ t x y, NoTickEndOps t → NoTickEndOps (t.drawPixel x y) := by
    intro t x y ht
    have htoggle := ht.emit (op := .dispToggle x y (t.toggleErases x y)) id
    unfold State.drawPixel
    split <;> exact htoggle
  refine List.foldlRecOn _ _ h fun t ht r _ => List.foldlRecOn _ _ ht fun u hu c _ => ?_
  split
  · exact hpixel u _ _ hu
  · exact hu

/-- No instruction makes an audio or a render call (R413). -/
theorem exec_noTickEndOps {i : Instr} {s t : State} (h : exec i s = .next t) (hs : NoTickEndOps s) :
    NoTickEndOps t := by
  cases i with
  | cls => cases h; exact hs.emit (op := .dispClear) id
  | drw x y n => cases h; exact NoTickEndOps.drawRows (s := s.advancePC.writeV VF 0#8) hs _ _ _ _
  | rnd x kk => cases h; exact hs.emit (op := .rnd s.drawByte) id
  | skp x | sknp x =>
    cases h
    exact NoTickEndOps.skipIf (s := s.advancePC.afterKeyQuery (s.readV x))
      (hs.emit (op := .keyQuery (s.readV x) s.keyAnswer) id) _
  | ldVxK x => cases h; exact hs.emit (op := .keyWaitArm) id
  | _ =>
    have hports : t.ports = s.ports := (exec_frame h).parts .ports (by simp [mayChange])
    rwa [NoTickEndOps, hports]

/-- No `step()` makes an audio or a render call (R413). -/
theorem stepInstruction_noTickEndOps {s t : State} (h : s.stepInstruction = .next t) (hs : NoTickEndOps s) :
    NoTickEndOps t := by
  rcases s.stepInstruction_cases with ⟨_, e⟩ | ⟨i, _, _, e⟩ | ⟨_, _, _, e⟩ <;> rw [h] at e
  · cases e; exact hs
  · exact exec_noTickEndOps e.symm hs
  · cases e; exact hs

/-- No burst makes an audio or a render call (R413). -/
theorem burst_noTickEndOps {n : Nat} {s t : State} (h : State.burst n s = .next t) (hs : NoTickEndOps s) :
    NoTickEndOps t := by
  induction n generalizing s with
  | zero => cases h; exact hs
  | succ n ih =>
    obtain ⟨u, hu⟩ := s.stepInstruction_answers_next
    rw [burst_succ hu] at h
    exact ih h (stepInstruction_noTickEndOps hu hs)

/-- Settles O19: a tick's record begins empty, and the burst adds no audio or render call to it. -/
theorem tickEndsWithOneAudioCallAndOneRender : Obligations.TickEndsWithOneAudioCallAndOneRender := by
  intro c s t h
  obtain ⟨u, hu, _⟩ := State.burst_answers_next c s.beginTick
  rw [advance_of_burst hu] at h
  cases h
  have hbegin : NoTickEndOps s.beginTick := by simp [NoTickEndOps]
  exact ⟨u.ports, endTick_ports u, burst_noTickEndOps hu hbegin⟩

/-! The steps of a tick together: no instruction reads the position in the tick, so a burst counted down by the machine's steps is the
burst of `advance` (log entry 8) -/

/-- The state at another position in the tick. -/
def atPhase (p : Phase) (s : State) : State := { s with phase := p }

section
variable (p : Phase) (s : State)

theorem skipIf_atPhase (c : Bool) : (atPhase p s).skipIf c = atPhase p (s.skipIf c) := by
  cases c <;> rfl

theorem popToPC_atPhase : (atPhase p s).popToPC = atPhase p s.popToPC := by
  rcases s.popToPC_cases with ⟨rest, w, hstack, e⟩ | ⟨hstack, e⟩
  · rw [e, (atPhase p s).popToPC_append rest w hstack]; rfl
  · rw [e]; simp [State.popToPC, atPhase, hstack]

theorem callSubroutine_atPhase (w : Word) : (atPhase p s).callSubroutine w = atPhase p (s.callSubroutine w) := by
  have hfull : (atPhase p s).stackFull = s.stackFull := rfl
  unfold State.callSubroutine
  rw [hfull]
  split <;> rfl

theorem drawPixel_atPhase (x y : Coord) : (atPhase p s).drawPixel x y = atPhase p (s.drawPixel x y) := by
  have herases : (atPhase p s).toggleErases x y = s.toggleErases x y := rfl
  unfold State.drawPixel
  rw [herases]
  split <;> rfl

theorem drawRow_atPhase (px : Byte) (y : Coord) (bits : Byte) :
    (atPhase p s).drawRow px y bits = atPhase p (s.drawRow px y bits) := by
  refine List.foldl_hom _ fun t c => ?_
  split
  · exact drawPixel_atPhase p t _ y
  · rfl

theorem drawRows_atPhase (px py : Byte) (base n : Nat) :
    (atPhase p s).drawRows px py base n = atPhase p (s.drawRows px py base n) :=
  List.foldl_hom _ fun t r => drawRow_atPhase p t px (pixelCoord py r) (t.readMem (base + r))

theorem storeBlock_atPhase (n : Nat) : (atPhase p s).storeBlock n = atPhase p (s.storeBlock n) :=
  List.foldl_hom _ fun _ _ => rfl

theorem loadBlock_atPhase (n : Nat) : (atPhase p s).loadBlock n = atPhase p (s.loadBlock n) :=
  List.foldl_hom _ fun _ _ => rfl

end

/-- An instruction's meaning is the same at every position in the tick. -/
theorem exec_atPhase {i : Instr} {s t : State} (p : Phase) (h : exec i s = .next t) :
    exec i (atPhase p s) = .next (atPhase p t) := by
  cases i <;> cases h
  case ret => exact congrArg _ (popToPC_atPhase p s.advancePC)
  case call => exact congrArg _ (callSubroutine_atPhase p s.advancePC _)
  case drw => exact congrArg _ (drawRows_atPhase p (s.advancePC.writeV VF 0#8) _ _ _ _)
  case seImm | sneImm | seReg | sneReg => exact congrArg _ (skipIf_atPhase p s.advancePC _)
  case skp x | sknp x => exact congrArg _ (skipIf_atPhase p (s.advancePC.afterKeyQuery (s.readV x)) _)
  case ldMemVx => exact congrArg _ (storeBlock_atPhase p s.advancePC _)
  case ldVxMem => exact congrArg _ (loadBlock_atPhase p s.advancePC _)
  all_goals rfl

/-- The engine's `step()` is the same at every position in the tick. -/
theorem stepInstruction_atPhase {s t : State} (p : Phase) (h : s.stepInstruction = .next t) :
    (atPhase p s).stepInstruction = .next (atPhase p t) := by
  have hhalted : (atPhase p s).halted = s.halted := rfl
  have hfetch : (atPhase p s).fetch = s.fetch := rfl
  rcases s.stepInstruction_cases with ⟨hh, e⟩ | ⟨i, hh, hd, e⟩ | ⟨why, hh, hd, e⟩ <;> rw [h] at e
  · cases e
    exact stepInstruction_of_halted (hhalted.trans hh)
  · rw [State.stepInstruction, hhalted, hh, hfetch, hd]
    exact exec_atPhase p e.symm
  · cases e
    rw [State.stepInstruction, hhalted, hh, hfetch, hd]
    rfl

/-- The end of a tick is the same at every position in the tick. -/
theorem endTick_atPhase (p : Phase) (s : State) : (atPhase p s).endTick = s.endTick := by
  rw [State.endTick_eq, State.endTick_eq]; rfl

/-- A run of one step more begins with a step, on any machine behind the host's interface. -/
theorem run_succ {M : Host.Core} {s t : M.State} (h : M.step s = .next t) (k : Nat) :
    M.run (k + 1) s = M.run k t := by
  rw [Host.Core.run, h]

/-- Where two states step alike, so do their runs. -/
theorem run_congr {M : Host.Core} {s t : M.State} (h : M.step s = M.step t) (k : Nat) :
    M.run (k + 1) s = M.run (k + 1) t := by
  rw [Host.Core.run, Host.Core.run, h]

/-- The steps of a burst with `n` invocations left and the step that ends the tick (R410, R411). -/
theorem run_atPhase_burst {n : Nat} {s t : State} (h : State.burst n s = .next t) :
    Host.Core.run Sys2Proof.core (n + 1) (atPhase (.burst n) s) = .next t.endTick.deliverKeys := by
  induction n generalizing s with
  | zero =>
    cases h
    have hstep : Sys2Proof.core.step (atPhase (.burst 0) t) = .next (atPhase (.burst 0) t).endTick.deliverKeys := rfl
    rw [endTick_atPhase] at hstep
    exact run_succ hstep 0
  | succ n ih =>
    obtain ⟨u, hu⟩ := s.stepInstruction_answers_next
    rw [burst_succ hu] at h
    have hstep : Sys2Proof.core.step (atPhase (.burst (n + 1)) s) = .next (atPhase (.burst n) u) :=
      stepInstruction_atPhase (s := s) (.burst n) hu
    exact (run_succ hstep (n + 1)).trans (ih h)

/-- A tick opens with its first step: between two ticks a step is that of a tick just begun, with its whole burst left (R411). -/
theorem step_between {s : State} (hp : s.phase = .between) :
    step s = step (atPhase (.burst s.driver.cyclesPerTick) s.beginTick) := by
  have hleft : s.stepsLeft = s.driver.cyclesPerTick := by rw [State.stepsLeft, hp]
  have hopen : s.openTick = s.beginTick := by rw [State.openTick, hp]
  cases hc : s.driver.cyclesPerTick with
  | zero =>
    rw [hc] at hleft
    simp only [step, machineStep, hleft, hopen]
    rw [← endTick_atPhase (.burst 0) s.beginTick]
    rfl
  | succ n =>
    rw [hc] at hleft
    simp only [step, machineStep, hleft, State.enterStep, hopen]
    rfl

/-- Settles O17: a burst counted down by the machine's steps is the burst, and between two ticks the first step opens one. -/
theorem stepsOfATickAreAdvance : Obligations.StepsOfATickAreAdvance := by
  constructor
  · intro s n hp
    obtain ⟨t, ht, _⟩ := State.burst_answers_next n s
    have hs : atPhase (.burst n) s = s := by rw [atPhase, ← hp]
    have hrun := run_atPhase_burst ht
    rw [hs] at hrun
    exact hrun.trans (finishTick_of_burst hp ht).symm
  · intro s hp
    obtain ⟨t, ht, _⟩ := State.burst_answers_next s.driver.cyclesPerTick s.beginTick
    have hopens : Sys2Proof.core.step s = Sys2Proof.core.step (atPhase (.burst s.driver.cyclesPerTick) s.beginTick) :=
      step_between hp
    rw [advance_of_burst ht]
    exact (run_congr hopens _).trans (run_atPhase_burst ht)

/-! The driver -/

/-- Settles O60: a tick of a started driver is `advance` on the state in which the tick in progress has ended. -/
theorem startAndStopLeaveTheEngineAlone : Obligations.StartAndStopLeaveTheEngineAlone := by
  intro s tps cpt
  have hengine : ∀ d : Driver, SameEngine s { s with driver := d } := fun _ =>
    ⟨fun _ _ => rfl, fun _ => rfl, rfl, rfl, rfl, rfl, rfl, rfl, rfl, rfl⟩
  obtain ⟨t, hfinish, hbetween, htick⟩ := (s.start tps cpt).tick_running rfl
  refine ⟨⟨_, rfl, rfl, rfl, rfl⟩, ⟨_, rfl, rfl, rfl⟩, hengine _, hengine _, rfl, fun hp => ?_,
    fun _ _ => ⟨t, hfinish, hbetween, htick⟩⟩
  have hidle : (s.start tps cpt).finishTick = .next (s.start tps cpt) := by
    have hp' : (s.start tps cpt).phase = .between := hp
    rw [State.finishTick, hp']
  rw [hidle] at hfinish
  cases hfinish
  exact htick

end Sys2Proof.Proofs

/-! PROOFS. The family of 41_control_flow.md: the jumps JP and JP V0 (R502, R504), the skips SE, SNE, SKP and SKNP (R505 to R509), and
the return from a call (R510). -/

namespace Sys2Proof.Proofs

open Sys2Proof Sys2Proof.Machine Sys2Proof.Claims

/-! The frame of the control-flow instructions -/

/-- A jump, call, return or skip writes no register (R510). -/
theorem not_mayWrite_of_control {i : Instr} (hi : setsPC i = true ∨ skips i = true) (s : State) (y : Reg) :
    ¬ MayWrite i s y := by
  cases i <;> simp_all [MayWrite, destination, writesFlag, setsPC, skips]

/-- A jump, call, return or skip stores nothing (R510). -/
theorem not_mayStore_of_control {i : Instr} (hi : setsPC i = true ∨ skips i = true) (s : State) (a : Nat) :
    ¬ MayStore i s a := by
  rintro (⟨x, rfl, -⟩ | ⟨x, rfl, -⟩) <;> simp [setsPC, skips] at hi

/-- The frame of a jump, call, return or skip: PC aside, only the instruction's own parts can change (R510). -/
theorem controlOnly_of_exec {i : Instr} {s t : State} (h : exec i s = .next t)
    (hi : setsPC i = true ∨ skips i = true) : ControlOnly (mayChange i) s t := by
  have hframe := exec_frame h
  exact ⟨fun y _ => hframe.regs y (not_mayWrite_of_control hi s y),
    fun a => hframe.mem a (not_mayStore_of_control hi s a), keepsPartsBut_of_exec h hframe.parts⟩

/-! Jumps -/

/-- Settles O28: the encoding of JP decodes back, and its target is the zero-extended operand. -/
theorem jpSetsPC : Obligations.JpSetsPC := fun nnn _ =>
  ⟨decodingAnEncodingGivesItBack (.jp nnn) rfl, _, rfl, addrOperand_toNat nnn,
    controlOnly_of_exec (i := .jp nnn) rfl (.inl rfl)⟩

/-- The target of JP V0 as a number: 12 bits and 8 bits, so the sum of R504 does not wrap at 16. -/
theorem offsetTarget_toNat (s : State) (nnn : Addr) :
    (s.offsetTarget nnn).toNat = nnn.toNat + (s.readV 0#4).toNat := by
  have hnnn := nnn.isLt
  have hV0 := (s.readV 0#4).isLt
  rw [State.offsetTarget, BitVec.toNat_add, addrOperand_toNat, BitVec.toNat_setWidth_of_le (by decide)]
  exact Nat.mod_eq_of_lt (by omega)

/-- Settles O30: the target is the exact sum. -/
theorem jpV0AddsTheWholeV0 : Obligations.JpV0AddsTheWholeV0 := fun nnn s =>
  ⟨_, rfl, offsetTarget_toNat s nnn, controlOnly_of_exec (i := .jpV0 nnn) rfl (.inl rfl)⟩

/-! Skips -/

section
variable {s u : State} {c : Bool} {p : Prop} [Decidable p]

/-- Two further after the default advance, four where the condition holds (R509). -/
theorem pcMoves_skipIf (hpc : u.PC = s.PC + 2#16) (hc : c = true ↔ p) :
    PCMoves (if p then 4 else 2) s (u.skipIf c) := by
  rcases u.skipIf_cases c with ⟨htrue, e⟩ | ⟨hfalse, e⟩ <;> rw [e]
  · rw [if_pos (hc.mp htrue)]
    exact pcMoves_four (congrArg (· + 2#16) hpc)
  · rw [if_neg (by simp [← hc, hfalse])]
    exact pcMoves_two hpc

/-- A skip on the negated condition: four further where the condition fails (R509). -/
theorem pcMoves_skipIf_not (hpc : u.PC = s.PC + 2#16) (hc : c = true ↔ ¬ p) :
    PCMoves (if p then 2 else 4) s (u.skipIf c) := by
  rw [← ite_not]
  exact pcMoves_skipIf hpc hc

end

/-- Settles O31: SE skips by the comparison with the immediate, SNE by its negation. -/
theorem immediateSkips : Obligations.ImmediateSkips := fun x kk _ =>
  ⟨_, _, rfl, rfl, pcMoves_skipIf rfl beq_iff_eq, pcMoves_skipIf_not rfl bne_iff_ne,
    controlOnly_of_exec (i := .seImm x kk) rfl (.inr rfl), controlOnly_of_exec (i := .sneImm x kk) rfl (.inr rfl)⟩

/-- Settles O32: SE skips by the comparison of the registers, SNE by its negation. -/
theorem registerSkips : Obligations.RegisterSkips := fun x y _ =>
  ⟨_, _, rfl, rfl, pcMoves_skipIf rfl beq_iff_eq, pcMoves_skipIf_not rfl bne_iff_ne,
    controlOnly_of_exec (i := .seReg x y) rfl (.inr rfl), controlOnly_of_exec (i := .sneReg x y) rfl (.inr rfl)⟩

/-- A skip after a key query leaves the one query on record and its one draw counted (R800). -/
theorem afterKeyQuery_skipIf_record (s : State) (k : Byte) (c : Bool) :
    ((s.afterKeyQuery k).skipIf c).ports = s.ports ++ [.keyQuery k s.keyAnswer] ∧
      ((s.afterKeyQuery k).skipIf c).draws = s.draws + 1 := by
  rw [State.skipIf_eq]
  exact ⟨rfl, rfl⟩

/-- Settles O25: both ask at the same count of draws, so one answer, whatever it is, decides both skips. -/
theorem keySkipsFollowTheAnswer : Obligations.KeySkipsFollowTheAnswer := by
  intro x s
  obtain ⟨hports, hdraws⟩ := afterKeyQuery_skipIf_record s.advancePC (s.readV x) s.keyAnswer
  obtain ⟨hports', hdraws'⟩ := afterKeyQuery_skipIf_record s.advancePC (s.readV x) (!s.keyAnswer)
  exact ⟨s.keyAnswer, _, _, rfl, rfl, hports, hports', pcMoves_skipIf rfl Iff.rfl, pcMoves_skipIf_not rfl (by simp),
    hdraws, hdraws', controlOnly_of_exec (i := .skp x) rfl (.inr rfl), controlOnly_of_exec (i := .sknp x) rfl (.inr rfl)⟩

/-! Call and return -/

/-- RET right after a CALL that pushed ends in the state of the default advance alone (R510). -/
theorem exec_ret_after_call {nnn : Addr} {s t : State} (hroom : s.stackFull = false) (h : exec (.call nnn) s = .next t) :
    exec .ret t = .next s.advancePC := by
  cases h
  rcases s.advancePC.callSubroutine_cases (addrOperand nnn) with ⟨hfull, _⟩ | ⟨_, e⟩
  · exact absurd (hfull.symm.trans hroom) nofun
  · rw [e]
    exact congrArg Host.Outcome.next (State.popToPC_append _ s.stack (s.PC + 2#16) rfl)

/-- Settles O33: the call and the return together are a default advance. -/
theorem callThenRetComesBack : Obligations.CallThenRetComesBack := by
  intro nnn s t hdepth h
  have hroom : s.stackFull = false := eq_false_of_ne_true fun hfull => hdepth ((stackFull_iff s).mp hfull)
  obtain ⟨hpc, hregs, hmem, hparts⟩ := straight_advancePC s
  exact ⟨_, exec_ret_after_call hroom h, hpc, hregs, hmem, hparts⟩

end Sys2Proof.Proofs

/-! PROOFS. The family of 42_register_alu.md: the loads and the addition without a flag (R600 to R602), the logical operations (R603 to
R605), the arithmetic and the shifts that write VF (R606 to R610). -/

namespace Sys2Proof.Proofs

open Sys2Proof Sys2Proof.Machine Sys2Proof.Claims

/-! The frame, the result and the flag of an ALU instruction -/

/-- An instruction with a destination writes that register, VF where it writes the flag, and no other (R102, R104). -/
theorem mem_of_mayWrite {i : Instr} {s : State} {x y : Reg} (hdest : destination i = some x) (hy : MayWrite i s y) :
    y ∈ x :: bif writesFlag i then [VF] else [] := by
  rcases hy with hy | ⟨hflag, rfl⟩ | ⟨_, rfl, _⟩
  · have hyx : y = x := Option.some_inj.mp (hy.symm.trans hdest)
    simp [hyx]
  · simp [hflag]
  · cases hdest

/-- An instruction with a destination stores nothing. -/
theorem not_mayStore_of_destination {i : Instr} {x : Reg} (hdest : destination i = some x) (s : State) (a : Nat) :
    ¬ MayStore i s a := by
  rintro (⟨_, rfl, _⟩ | ⟨_, rfl, _⟩) <;> cases hdest

/-- An instruction with a destination leaves PC to the default advance (R404). -/
theorem not_control_of_destination {i : Instr} {x : Reg} (hdest : destination i = some x) :
    setsPC i = false ∧ skips i = false := by
  cases i <;> cases hdest <;> exact ⟨rfl, rfl⟩

/-- The frame of an instruction with a destination: that register, and VF where it writes the flag (R102, R104). -/
theorem straight_of_destination {i : Instr} {x : Reg} {s t : State} (h : exec i s = .next t)
    (hdest : destination i = some x) : Straight (x :: bif writesFlag i then [VF] else []) (mayChange i) s t := by
  obtain ⟨hset, hskip⟩ := not_control_of_destination hdest
  exact straight_of_exec h hset hskip (fun _ => mem_of_mayWrite hdest) (not_mayStore_of_destination hdest s)

/-- The written register reads as the written byte (R101). -/
theorem readV_writeV_same (s : State) (x : Reg) (b : Byte) : (s.writeV x b).readV x = b := by
  rw [State.readV_writeV, if_pos rfl]

/-- The flag is written last, so VF holds it also where x is 15; any other Vx keeps the result (R16, R102). -/
theorem resultThenFlag_writeResultAndFlag (s : State) {x : Reg} {result flag : Byte} {r f : Nat}
    (hr : result.toNat = r) (hf : flag.toNat = f) : ResultThenFlag x r f (s.writeResultAndFlag x result flag) := by
  refine ⟨(congrArg BitVec.toNat (readV_writeV_same _ VF flag)).trans hf, fun hx => ?_⟩
  have hVF : VF ≠ x := hx.symm
  rw [State.writeResultAndFlag, State.readV_writeV, if_neg hVF, readV_writeV_same, hr]

/-! The results and the flags as numbers -/

theorem flagByte_decide_toNat (p : Prop) [Decidable p] : (flagByte (decide p)).toNat = if p then 1 else 0 := by
  by_cases hp : p <;> simp [flagByte, hp]

/-- The difference of two bytes, the borrowed 256 added before the subtraction (R607, R609). -/
theorem byte_sub_toNat (a b : Byte) : (a - b).toNat = (a.toNat + 256 - b.toNat) % 256 := by
  have hb := b.isLt
  rw [BitVec.toNat_sub]
  omega

/-- A shift right by one halves (R608). -/
theorem byte_shiftRight_one_toNat (a : Byte) : (a >>> 1).toNat = a.toNat / 2 := by
  rw [BitVec.toNat_ushiftRight, Nat.shiftRight_eq_div_pow, Nat.pow_one]

/-- A shift left by one doubles, wrapping (R610). -/
theorem byte_shiftLeft_one_toNat (a : Byte) : (a <<< 1).toNat = a.toNat * 2 % 256 := by
  rw [BitVec.toNat_shiftLeft, Nat.shiftLeft_eq, Nat.pow_one]

/-- The bit SHR shifts out is the remainder of the halving (R608). -/
theorem shiftedOutRight_toNat (a : Byte) : (shiftedOutRight a).toNat = a.toNat % 2 := by
  rw [shiftedOutRight, BitVec.toNat_and]
  exact Nat.and_one_is_mod _

/-- The bit SHL shifts out is bit 7, the top one, so nothing is left above it (R610). -/
theorem shiftedOutLeft_toNat (a : Byte) : (shiftedOutLeft a).toNat = a.toNat / 128 := by
  have ha := a.isLt
  calc (shiftedOutLeft a).toNat
      = (a >>> 7).toNat % 2 := shiftedOutRight_toNat (a >>> 7)
    _ = a.toNat / 128 % 2 := by rw [BitVec.toNat_ushiftRight, Nat.shiftRight_eq_div_pow]
    _ = a.toNat / 128 := Nat.mod_eq_of_lt (by omega)

/-! Arithmetic and shifts: a result and then a flag -/

/-- Settles O41: the sum of two bytes wraps at 256, and the carry is decided on the exact sum. -/
theorem addRegWrapsAndSetsCarry : Obligations.AddRegWrapsAndSetsCarry := fun x y _ =>
  ⟨_, rfl, resultThenFlag_writeResultAndFlag _ (BitVec.toNat_add _ _) (flagByte_decide_toNat _),
    straight_of_destination (i := .addReg x y) rfl rfl⟩

/-- Settles O42: the difference Vx − Vy, and the strict comparison of the old values. -/
theorem subRegWrapsAndSetsStrictFlag : Obligations.SubRegWrapsAndSetsStrictFlag := fun x y _ =>
  ⟨_, rfl, resultThenFlag_writeResultAndFlag _ (byte_sub_toNat _ _) (flagByte_decide_toNat _),
    straight_of_destination (i := .subReg x y) rfl rfl⟩

/-- Settles O43: the difference and the comparison of O42 with the operands the other way round. -/
theorem subnRegReversesTheSubtraction : Obligations.SubnRegReversesTheSubtraction := fun x y _ =>
  ⟨_, rfl, resultThenFlag_writeResultAndFlag _ (byte_sub_toNat _ _) (flagByte_decide_toNat _),
    straight_of_destination (i := .subnReg x y) rfl rfl⟩

/-- Settles O44: SHR is quotient and remainder by 2; SHL the double modulo 256, its flag the quotient by 128. -/
theorem shiftsSetTheBitShiftedOut : Obligations.ShiftsSetTheBitShiftedOut := fun x _ =>
  ⟨_, _, rfl, rfl,
    resultThenFlag_writeResultAndFlag _ (byte_shiftRight_one_toNat _) (shiftedOutRight_toNat _),
    resultThenFlag_writeResultAndFlag _ (byte_shiftLeft_one_toNat _) (shiftedOutLeft_toNat _),
    straight_of_destination (i := .shr x) rfl rfl, straight_of_destination (i := .shl x) rfl rfl⟩

/-! Loads, the addition of an immediate and the logical operations: a result and no flag -/

/-- Settles O37: the written register reads as kk. -/
theorem ldImmWritesVx : Obligations.LdImmWritesVx := fun x kk _ =>
  ⟨_, rfl, readV_writeV_same _ x kk, straight_of_destination (i := .ldImm x kk) rfl rfl⟩

/-- Settles O38: the sum of two bytes wraps at 256, and the frame leaves VF out (D10). -/
theorem addImmWrapsWithoutFlag : Obligations.AddImmWrapsWithoutFlag := by
  intro x kk s
  refine ⟨_, rfl, ?_, straight_of_destination (i := .addImm x kk) rfl rfl⟩
  rw [readV_writeV_same, BitVec.toNat_add]

/-- Settles O39: the written register reads as the old Vy. -/
theorem ldRegCopies : Obligations.LdRegCopies := fun x y _ =>
  ⟨_, rfl, readV_writeV_same _ x _, straight_of_destination (i := .ldReg x y) rfl rfl⟩

/-- Settles O40: a bitwise operation acts on each bit alone, and the frame leaves VF out (D10). -/
theorem logicalOpsWriteVxWithoutFlag : Obligations.LogicalOpsWriteVxWithoutFlag := by
  intro x y s
  refine ⟨_, _, _, rfl, rfl, rfl, fun k _ => ?_, fun k _ => ?_, fun k _ => ?_,
    straight_of_destination (i := .orReg x y) rfl rfl, straight_of_destination (i := .andReg x y) rfl rfl,
    straight_of_destination (i := .xorReg x y) rfl rfl⟩
  · rw [readV_writeV_same, BitVec.getLsbD_or]
  · rw [readV_writeV_same, BitVec.getLsbD_and]
  · rw [readV_writeV_same, BitVec.getLsbD_xor]

end Sys2Proof.Proofs

/-! PROOFS. The family of 43_display.md: the display contract (R701, R702, R704), CLS (R710), and a sprite drawn twice (R712). -/

namespace Sys2Proof.Proofs

open Sys2Proof Sys2Proof.Machine Sys2Proof.Claims

/-! The display contract -/

/-- The column of a coordinate as a number: floored modulo 64 (R701, R704). -/
theorem column_eq_iff (x : Int) (c : Fin 64) : column x = c ↔ x % 64 = c := by
  rw [Fin.ext_iff]
  simp only [column]
  omega

/-- The row of a coordinate as a number: floored modulo 32 (R701, R704). -/
theorem row_eq_iff (y : Int) (r : Fin 32) : row y = r ↔ y % 32 = r := by
  rw [Fin.ext_iff]
  simp only [row]
  omega

/-- Settles O47: the laws of a toggle and of a clear, with the coordinates' pixel as two remainders. -/
theorem displayContract : Obligations.DisplayContract := by
  refine ⟨fun fb x y c r => ⟨?_, fun hc hr => ?_, Framebuffer.pixel_dark c r⟩, by decide, by decide⟩
  · simp only [Framebuffer.pixel_toggle, column_eq_iff, row_eq_iff]
  · rw [Framebuffer.erased, (column_eq_iff x c).mpr hc, (row_eq_iff y r).mpr hr]

/-! CLS -/

/-- Settles O48: the framebuffer is dark and the clear is recorded by definition; all else is the frame. -/
theorem clsTurnsEveryPixelOff : Obligations.ClsTurnsEveryPixelOff := by
  intro s
  refine ⟨_, rfl, Framebuffer.pixel_dark, rfl, straight_of_exec (i := .cls) rfl rfl rfl ?_ ?_⟩
  · simp [MayWrite, destination, writesFlag]
  · simp [MayStore]

/-! A sprite drawn twice -/

/-- Which pixels a sprite covers depends on its two coordinates, on I and on memory alone (R711). -/
theorem spriteCovers_congr {s t : State} {x y : Reg} (hx : t.readV x = s.readV x) (hy : t.readV y = s.readV y)
    (hI : t.I = s.I) (hmem : KeepsMem s t) (n : Nibble) (c : Fin 64) (r : Fin 32) :
    SpriteCovers t x y n c r ↔ SpriteCovers s x y n c r := by
  simp only [SpriteCovers, hx, hy, hI, hmem _]

/-- Settles O50: the first draw leaves the coordinates, I and memory as they are, so the second covers the same pixels, which the first
has set, and inverts them back. -/
theorem drawingTwiceErases : Obligations.DrawingTwiceErases := by
  intro x y n s t hx hy hdark hexec
  obtain ⟨_, hexec₁, hpixel₁, -, hflag₁, -, hregs, hmem, hparts, -⟩ := drwInvertsTheSpriteAndSetsCollision x y n s
  cases hexec₁.symm.trans hexec
  obtain ⟨u, hexec₂, hpixel₂, hflag₂, -, -⟩ := drwInvertsTheSpriteAndSetsCollision x y n t
  have hcovers := spriteCovers_congr (hregs x (by simpa using hx)) (hregs y (by simpa using hy))
    (hparts .I (by simp)) hmem n
  refine ⟨hflag₁ hdark, u, hexec₂, fun c r => ?_, fun ⟨c, r, hc⟩ => hflag₂ ⟨c, r, (hcovers c r).mpr hc, ?_⟩⟩
  · by_cases hc : SpriteCovers s x y n c r
    · rw [(hpixel₂ c r).1 ((hcovers c r).mpr hc), (hpixel₁ c r).1 hc, Bool.not_not]
    · rw [(hpixel₂ c r).2 (mt (hcovers c r).mp hc), (hpixel₁ c r).2 hc]
  · rw [(hpixel₁ c r).1 hc, hdark c r hc, Bool.not_false]

end Sys2Proof.Proofs

/-! PROOFS. The family of 44_keys.md: the key-wait LD Vx,K (R803), and the key-down events between two ticks, inside a tick and in the gap
after it (R804 to R806). -/

namespace Sys2Proof.Proofs

open Sys2Proof Sys2Proof.Machine Sys2Proof.Claims

/-! A key-down event inside a tick, and the gap after the tick -/

/-- The keyboard's input is no part of the engine (R100). -/
theorem sameEngine_withKeyInput (s : State) (input : List (List Key)) : SameEngine s { s with keyInput := input } :=
  ⟨fun _ _ => rfl, fun _ => rfl, rfl, rfl, rfl, rfl, rfl, rfl, rfl, rfl⟩

/-- An event inside a tick joins the events of the gap after it, behind those listed for it (log entries 6 and 18). -/
theorem keyArrives_of_burst {s : State} {n : Nat} (hp : s.phase = .burst n) (k : Key) :
    s.keyArrives k = { s with keyInput := (s.keyInput.headD [] ++ [k]) :: s.keyInput.tail } := by
  cases hk : s.keyInput <;> simp [State.keyArrives, hp, hk]

/-- Without a pending wait the gap only moves the keyboard's input on (R806). -/
theorem deliverKeys_of_no_wait {s : State} (hw : s.waitReg = none) :
    s.deliverKeys = { s with keyInput := s.keyInput.tail } := by
  rcases s.deliverKeys_cases with ⟨x, _, _, _, hx, _⟩ | h
  · cases hw.symm.trans hx
  · exact h

/-- The gap stores nothing to memory (R805). -/
theorem deliverKeys_keepsMem (s : State) : KeepsMem s s.deliverKeys := by
  rcases s.deliverKeys_cases with ⟨_, _, _, _, _, _, h⟩ | h <;> rw [h] <;> exact fun _ => rfl

/-- Settles O22: an event inside a tick reaches the keyboard's input alone; in the gap the first event completes the wait. -/
theorem gapEventsCompleteTheWaitOnce : Obligations.GapEventsCompleteTheWaitOnce := by
  refine ⟨fun s k n hp => ?_, fun s x k later rest hx hk => ?_, fun s hw => ?_⟩
  · rw [keyArrives_of_burst hp]
    exact ⟨sameEngine_withKeyInput s _, fun hk => by rw [hk]; rfl, fun ks rest hk => by rw [hk]; rfl⟩
  · obtain ⟨hread, hpaused, hwait, hinput, hregs⟩ := deliverKeys_completes hx hk
    obtain ⟨-, -, -, hPC⟩ := deliverKeys_frame s
    exact ⟨hread, hpaused, hwait, hinput, hPC, hregs, deliverKeys_keepsMem s⟩
  · rw [deliverKeys_of_no_wait hw]
    exact ⟨sameEngine_withKeyInput s _, rfl⟩

/-! A key-down event between two ticks -/

/-- Between two ticks an event takes effect at once (R805, D18). -/
theorem keyArrives_of_between {s : State} (hp : s.phase = .between) (k : Key) : s.keyArrives k = s.keyDown k := by
  rw [State.keyArrives, hp]

/-- An event without a pending wait is ignored (R806). -/
theorem keyDown_of_no_wait {s : State} (hw : s.waitReg = none) (k : Key) : s.keyDown k = s :=
  s.keyDowns_none [k] hw

/-- The completion of a wait touches Vx, `paused` and `waitReg` alone (R805). -/
theorem keyDown_of_wait {s : State} {x : Reg} (hx : s.waitReg = some x) (k : Key) :
    s.keyDown k = { s.writeV x (k.setWidth 8) with paused := false, waitReg := none } := by
  rw [State.keyDown, hx]

/-- Settles O21: the event takes effect at once, on a pending wait as its completion and else not at all. -/
theorem keyDownCompletesAPendingWait : Obligations.KeyDownCompletesAPendingWait := by
  intro s k hp
  rw [keyArrives_of_between hp]
  refine ⟨fun x hx => ?_, fun hw => keyDown_of_no_wait hw k⟩
  rw [keyDown_of_wait hx]
  refine ⟨?_, rfl, rfl, rfl, keepsRegsBut_writeV (fun _ => rfl) x _, fun _ => rfl, fun p hnot => ?_, rfl, rfl, rfl, rfl⟩
  · exact (congrArg BitVec.toNat (readV_writeV_same s x _)).trans (BitVec.toNat_setWidth_of_le (by decide))
  · cases p with
    | wait => simp at hnot
    | I | stack | DT | ST | faulted | fb | ports | draws => rfl

/-! The key-wait -/

/-- Settles O24: the pause, the latch and the armed hook by definition; PC and all else by the instruction's frame. -/
theorem keyWaitPausesAndArms : Obligations.KeyWaitPausesAndArms := by
  intro x s
  refine ⟨_, rfl, rfl, rfl, rfl, straight_of_exec (i := .ldVxK x) rfl rfl rfl ?_ ?_⟩
  · simp [MayWrite, destination, writesFlag]
  · simp [MayStore]

end Sys2Proof.Proofs

/-! PROOFS. The family of 45_timers_and_memory_ops.md: the three writes of the address register (R903 to R905). -/

namespace Sys2Proof.Proofs

open Sys2Proof Sys2Proof.Machine Sys2Proof.Claims

/-! The address register -/

/-- The sum of ADD I,Vx as a number: it wraps at 16 bits (R904). -/
theorem addressSum_toNat (s : State) (x : Reg) :
    (s.I + (s.readV x).setWidth 16).toNat = (s.I.toNat + (s.readV x).toNat) % 65536 := by
  rw [BitVec.toNat_add, BitVec.toNat_setWidth_of_le (by decide)]

/-- The glyph address as a number: five times a whole byte stays below 65536, so nothing wraps (R905, D14). -/
theorem glyphAddr_toNat (s : State) (x : Reg) : (s.glyphAddr x).toNat = (s.readV x).toNat * 5 := by
  have hVx := (s.readV x).isLt
  exact Nat.mod_eq_of_lt (by omega)

/-- The frame of an instruction whose one part to change is I: LD I, ADD I and LD F write no register, no flag and no byte
(R903 to R905, D10). -/
theorem straight_of_mayChange_I {i : Instr} {s t : State} (h : exec i s = .next t) (hI : mayChange i = [.I]) :
    Straight [] [.I] s t := by
  rw [← hI]
  cases i <;> cases hI
  case ldI | addI | ldF =>
    refine straight_of_exec h rfl rfl ?_ ?_
    · simp [MayWrite, destination, writesFlag]
    · simp [MayStore]

/-- Settles O53: each value of I as a number, and one frame for the three. -/
theorem addressRegisterOps : Obligations.AddressRegisterOps := fun nnn x s =>
  ⟨_, _, _, rfl, rfl, rfl, addrOperand_toNat nnn, addressSum_toNat s x, glyphAddr_toNat s x,
    straight_of_mayChange_I (i := .ldI nnn) rfl rfl, straight_of_mayChange_I (i := .addI x) rfl rfl,
    straight_of_mayChange_I (i := .ldF x) rfl rfl⟩

end Sys2Proof.Proofs

/-! PROOFS. The family of 60_exceptions.md: no state stops a step (R1000 to R1006), and RET on any stack (R501, R1002). -/

namespace Sys2Proof.Proofs

open Sys2Proof Sys2Proof.Machine Sys2Proof.Claims

/-! No exception -/

/-- Settles O14: a step is one invocation of the engine's `step()`, which always answers a next state, or the end of a tick. -/
theorem everyStepAnswersNext : Obligations.EveryStepAnswersNext := by
  intro s
  rcases step_cases s with ⟨n, _, hstep⟩ | ⟨_, hstep⟩
  · rw [hstep]
    exact (s.enterStep n).stepInstruction_answers_next
  · exact ⟨_, hstep⟩

/-! Return -/

/-- A return on an empty stack does nothing (R1002). -/
theorem popToPC_of_empty {s : State} (h : s.stack = []) : s.popToPC = s := by
  rcases s.popToPC_cases with ⟨rest, w, hstack, _⟩ | ⟨_, hpop⟩
  · simp [h] at hstack
  · exact hpop

/-- Settles O27: RET pops the last entry after the default advance, and on an empty stack that advance alone is left. -/
theorem retPopsOrFallsThrough : Obligations.RetPopsOrFallsThrough := by
  intro s
  refine ⟨s.advancePC.popToPC, rfl, controlOnly_of_exec (i := .ret) rfl (.inl rfl), fun older w hstack => ?_,
    fun hempty => ?_⟩
  · rw [State.popToPC_append s.advancePC older w hstack]
    exact ⟨rfl, rfl⟩
  · rw [popToPC_of_empty (s := s.advancePC) hempty]
    exact ⟨pcMoves_two rfl, hempty⟩

end Sys2Proof.Proofs

/-! PROOFS. The family of 70_reset_and_hazards.md: loading a program (R1102, R1103). -/

namespace Sys2Proof.Proofs

open Sys2Proof Sys2Proof.Machine Sys2Proof.Claims

/-- The state a successful load leaves: the bytes written from `PROGRAM_START`, and no other field touched (R1102, D4). -/
theorem loadProgram_of_fits (s : State) {bytes : List Byte} (h : bytes.length ≤ maxProgramBytes) :
    s.loadProgram bytes = .ok { s with mem := s.mem.writeBytes programStart bytes } :=
  if_neg (Nat.not_lt.mpr h)

/-- A program larger than the program region is refused (R1103). -/
theorem loadProgram_of_tooLarge (s : State) {bytes : List Byte} (h : maxProgramBytes < bytes.length) :
    s.loadProgram bytes = .error .outOfMemory :=
  if_pos h

/-- A program that fits ends at the top of memory at the latest, so no write wraps, and the bytes below and above it are
none of those written (R1102, D4). -/
theorem read_writeBytes_programStart_outside (m : Memory) {bytes : List Byte} (h : bytes.length ≤ maxProgramBytes) {a : Nat}
    (ha : a < memSize) (hout : a < programStart ∨ programStart + bytes.length ≤ a) :
    (m.writeBytes programStart bytes).read a = m.read a := by
  refine Memory.read_writeBytes_outside bytes m programStart a fun k hk => ?_
  have hfits : programStart + k < memSize := by
    simp only [maxProgramBytes, programStart, memSize] at h ⊢
    omega
  rw [memIndex, memIndex, Nat.mod_eq_of_lt hfits, Nat.mod_eq_of_lt ha]
  omega

/-- Settles O59: the copied bytes and the bytes around them by the two laws of a byte sequence's write, all else because
the load replaces memory alone. -/
theorem loadProgramCopiesOrRefuses : Obligations.LoadProgramCopiesOrRefuses := by
  refine fun s bytes => ⟨fun hfits => ?_, loadProgram_of_tooLarge s⟩
  have hsize : bytes.length ≤ memSize := hfits.trans (by decide)
  exact ⟨_, loadProgram_of_fits s hfits,
    fun k hk => Memory.read_writeBytes bytes s.mem programStart k hk hsize,
    fun _ ha hout => read_writeBytes_programStart_outside s.mem hfits ha hout,
    rfl, fun _ _ => rfl, fun p _ => same_withVPCMem s _ _ _ p, rfl, rfl, rfl, rfl⟩

end Sys2Proof.Proofs
